-- ==== Sys2Proof/Word.lean ====
section
/-! DEFINITION. The widths the spec names: a 32-bit general register or instruction word, a 64-bit PAR instance (R4, R10, R16). -/

namespace Sys2Proof

/-- A general register or an A32 instruction word: 32 bits (R16, R96). -/
abbrev Word := BitVec 32

/-- One instance of PAR: 64 bits (R10). -/
abbrev DWord := BitVec 64

/-- One halfword of a T32 instruction (R97). -/
abbrev Half := BitVec 16

/-- The number of a general register as an instruction names it (R16, R91). -/
abbrev RegNo := BitVec 4

end Sys2Proof
end

