-- ==== Sys2Proof/Config.lean ====
section
/-! DEFINITION. What an implementation fixes (R3), and the free values: the draws of R5 and R6 and the fields of `ImpDef`. -/

namespace Sys2Proof

/-- The configuration parameters of R3. No value is fixed by the spec, so every statement holds for all of them; they are
plain data, carried unchanged in State. -/
structure Config where
  /-- EL1 is capable of using AArch32, so PAR exists (R2). -/
  parPresent : Bool
  /-- EL2 is implemented. -/
  haveEL2 : Bool
  /-- `HaveEL(EL3)`: EL3 is implemented. -/
  haveEL3 : Bool
  /-- `ELUsingAArch32(EL3)`. -/
  el3UsingAArch32 : Bool
  /-- The number of implemented physical address bits, 32 to 40. -/
  paSize : Nat
  /-- FEAT_RAS is implemented. -/
  haveRAS : Bool
  /-- The implementation classifies External aborts (R39). -/
  haveExtAbortClass : Bool
  /-- A direct access needs a Context synchronization event after a write-back (R176). -/
  syncRequired : Bool
  deriving DecidableEq, Repr

/-- `draw_w()` (R5, R6): the n-th draw of the run, as a value of w bits. FREE VALUE: it has no body, so nothing can be
proved of it (log entry 5). -/
opaque Config.draw (w : Nat) : Nat → BitVec w

/-- `ImpDef.S32_bit8` (R27) of the event whose draws begin at the given number. FREE VALUE (log entry 15). -/
opaque Config.impDefS32Bit8 : Nat → BitVec 1

/-- `ImpDef.F32_bits31_16` (R35). FREE VALUE (log entry 15). -/
opaque Config.impDefF32Bits31To16 : Nat → BitVec 16

/-- `ImpDef.S64_bit10` (R47). FREE VALUE (log entry 15). -/
opaque Config.impDefS64Bit10 : Nat → BitVec 1

/-- `ImpDef.F64_bits63_56` (R53). FREE VALUE (log entry 15). -/
opaque Config.impDefF64Bits63To56 : Nat → BitVec 8

/-- `ImpDef.F64_bits55_52` (R54). FREE VALUE (log entry 15). -/
opaque Config.impDefF64Bits55To52 : Nat → BitVec 4

/-- `ImpDef.F64_bits51_48` (R55). FREE VALUE (log entry 15). -/
opaque Config.impDefF64Bits51To48 : Nat → BitVec 4

end Sys2Proof
end

