-- ==== Sys2Proof/Syntax.lean ====
section
/-! DEFINITION. The instructions: one constructor per row of spec/opcode_table.json. -/

namespace Sys2Proof

/-- The four direct accesses to PAR (R93). `cond` is the condition field of the A32 word (R96); a T32 instruction has the
condition 0b1110 there (R97). Whether the condition passes is the context input of R15, R18. -/
inductive Instr where
  /-- MRC: read PAR[31:0] into R[rt] (R120). -/
  | mrc (cond : BitVec 4) (rt : RegNo)
  /-- MCR: write PAR[31:0] from R[rt] (R121). -/
  | mcr (cond : BitVec 4) (rt : RegNo)
  /-- MRRC: read PAR[63:0] into R[rt2]:R[rt] (R130). -/
  | mrrc (cond : BitVec 4) (rt rt2 : RegNo)
  /-- MCRR: write PAR[63:0] from R[rt2]:R[rt] (R131). -/
  | mcrr (cond : BitVec 4) (rt rt2 : RegNo)
  deriving DecidableEq, Repr

end Sys2Proof
end

