-- ==== Sys2Proof/WellFormed.lean ====
section
/-! DEFINITION. Which terms of Instr are instructions: the condition field of R96 and the register numbers of R100. -/

namespace Sys2Proof

/-- `cond` is "any value but 0b1111" (R96). -/
def condOk (cond : BitVec 4) : Bool := cond != 0b1111#4

/-- t, t2 are "only numbers 0 to 14" (R16, R100). -/
def regNoOk (t : RegNo) : Bool := t != 15#4

/-- An instruction the spec gives a meaning to (R96, R100): MCRR with rt = rt2 is one, MRRC with rt = rt2 is not. -/
def Instr.wellFormed : Instr → Bool
  | .mrc c t => condOk c && regNoOk t
  | .mcr c t => condOk c && regNoOk t
  | .mrrc c t t2 => condOk c && regNoOk t && regNoOk t2 && t != t2
  | .mcrr c t t2 => condOk c && regNoOk t && regNoOk t2

/-- The condition field of an instruction. -/
def Instr.cond : Instr → BitVec 4
  | .mrc c _ => c
  | .mcr c _ => c
  | .mrrc c _ _ => c
  | .mcrr c _ _ => c

end Sys2Proof
end

