-- ==== Sys2Proof/Decode.lean ====
section
/-! DEFINITION. Decoding at the tuple level (R90 to R95, R103), the A32 and T32 words of a tuple (R96, R97), and the encoder.
Decoding never faults (R103): what is no access to PAR is refused by name. An instruction word is a number, not a sequence of
bytes (D13, log entry 12). -/

namespace Sys2Proof

/-- Read (MRC, MRRC) or write (MCR, MCRR): "The direction … is given by the mnemonic" (R91, R92). -/
inductive Dir where
  | read
  | write
  deriving DecidableEq, Repr

/-- Format SYS32 (R90, R91): MRC and MCR. -/
structure Sys32 where
  dir : Dir
  cond : BitVec 4
  coproc : BitVec 4
  opc1 : BitVec 3
  crn : BitVec 4
  crm : BitVec 4
  opc2 : BitVec 3
  rt : RegNo
  deriving DecidableEq, Repr

/-- Format SYS64 (R90, R92): MRRC and MCRR. -/
structure Sys64 where
  dir : Dir
  cond : BitVec 4
  coproc : BitVec 4
  opc1 : BitVec 4
  crm : BitVec 4
  rt : RegNo
  rt2 : RegNo
  deriving DecidableEq, Repr

/-- An instruction at the tuple level (R103): one of the four mnemonics with its field values, or anything else. -/
inductive Tuple where
  | sys32 (x : Sys32)
  | sys64 (x : Sys64)
  | other
  deriving DecidableEq, Repr

/-- Why decoding refuses (R103). -/
inductive DecodeError where
  /-- The mnemonic is not one of the four, or the word has neither layout: R103 step (1). -/
  | notAnAccess
  /-- The condition field is 0b1111: "not these instructions" (R96). -/
  | condition
  /-- A neighbouring encoding: some other System register, or none (R101, R103 step (2)). -/
  | otherRegister
  /-- A register number that R100 does not admit (R103 step (3)). -/
  | registerNumber
  deriving DecidableEq, Repr

/-- PAR's field values for the 32-bit accesses (R93). -/
def Sys32.namesPAR (x : Sys32) : Bool :=
  x.coproc == 0b1111#4 && x.opc1 == 0b000#3 && x.crn == 0b0111#4 && x.crm == 0b0100#4 && x.opc2 == 0b000#3

/-- PAR's field values for the 64-bit accesses (R93). -/
def Sys64.namesPAR (x : Sys64) : Bool :=
  x.coproc == 0b1111#4 && x.opc1 == 0b0000#4 && x.crm == 0b0111#4

/-- The instruction a SYS32 tuple with PAR's field values is (R93). -/
def Sys32.instr (x : Sys32) : Instr :=
  match x.dir with
  | .read => .mrc x.cond x.rt
  | .write => .mcr x.cond x.rt

/-- The instruction a SYS64 tuple with PAR's field values is (R93). -/
def Sys64.instr (x : Sys64) : Instr :=
  match x.dir with
  | .read => .mrrc x.cond x.rt x.rt2
  | .write => .mcrr x.cond x.rt x.rt2

/-- Refuse a condition field of 0b1111 (R96) and the register numbers of R100; admit the rest. -/
def admitInstr (i : Instr) : Except DecodeError Instr :=
  if condOk i.cond then
    if i.wellFormed then .ok i else .error .registerNumber
  else .error .condition

/-- The decode procedure of R103. -/
def decodeTuple : Tuple → Except DecodeError Instr
  | .sys32 x => if x.namesPAR then admitInstr x.instr else .error .otherRegister
  | .sys64 x => if x.namesPAR then admitInstr x.instr else .error .otherRegister
  | .other => .error .notAnAccess

/-- The direction bit, bit 20 of the word: 1 read, 0 write (R96). -/
def dirOfBit (b : BitVec 1) : Dir := if b = 1#1 then .read else .write

/-- The tuple of an A32 word, by the layouts of R96. -/
def tupleOfA32 (w : Word) : Tuple :=
  if w.extractLsb' 24 4 = 0b1110#4 ∧ w.extractLsb' 4 1 = 1#1 then
    .sys32 { dir := dirOfBit (w.extractLsb' 20 1), cond := w.extractLsb' 28 4, coproc := w.extractLsb' 8 4,
             opc1 := w.extractLsb' 21 3, crn := w.extractLsb' 16 4, crm := w.extractLsb' 0 4,
             opc2 := w.extractLsb' 5 3, rt := w.extractLsb' 12 4 }
  else if w.extractLsb' 21 7 = 0b1100010#7 then
    .sys64 { dir := dirOfBit (w.extractLsb' 20 1), cond := w.extractLsb' 28 4, coproc := w.extractLsb' 8 4,
             opc1 := w.extractLsb' 4 4, crm := w.extractLsb' 0 4,
             rt := w.extractLsb' 12 4, rt2 := w.extractLsb' 16 4 }
  else .other

/-- The tuple of a T32 instruction: the layout of R96 over `hw1 : hw2`, with bits 31:28 fixed to 0b1110 (R97). -/
def tupleOfT32 (hw1 hw2 : Half) : Tuple :=
  if hw1.extractLsb' 12 4 = 0b1110#4 then tupleOfA32 (hw1 ++ hw2) else .other

/-- Decode an A32 instruction word (R96, R103). -/
def decodeA32 (w : Word) : Except DecodeError Instr := decodeTuple (tupleOfA32 w)

/-- Decode a T32 instruction, first halfword first (R97, R103). -/
def decodeT32 (hw1 hw2 : Half) : Except DecodeError Instr := decodeTuple (tupleOfT32 hw1 hw2)

/-- The instruction the decoder reads from an instruction whose bits are w, of which the table gives nbits: one 32-bit word,
every bit above nbits zero. -/
def decodeTableWord (nbits w : Nat) : Option Instr :=
  match decodeA32 (BitVec.ofNat 32 (w % 2 ^ nbits)) with
  | .ok i => some i
  | .error _ => none

/-! ## Assembler lines (R94, R95) -/

/-- The `<q>` of the syntax: it does not change the operation (R95). -/
inductive Qualifier where
  | narrow
  | wide
  deriving DecidableEq, Repr

/-- One assembler line of R95, its operands already numbers; an optional part left out is `none`. -/
inductive AsmLine where
  | sys32 (dir : Dir) (c : Option (BitVec 4)) (q : Option Qualifier) (coproc : BitVec 4) (opc1 : BitVec 3) (rt : RegNo)
      (crn crm : BitVec 4) (opc2 : Option (BitVec 3))
  | sys64 (dir : Dir) (c : Option (BitVec 4)) (q : Option Qualifier) (coproc opc1 : BitVec 4) (rt rt2 : RegNo) (crm : BitVec 4)
  deriving DecidableEq, Repr

/-- The tuple of an assembler line: an omitted `<c>` is AL, 0b1110, and an omitted `<opc2>` is 0 (R94, R95). -/
def assemble : AsmLine → Tuple
  | .sys32 dir c _ coproc opc1 rt crn crm opc2 =>
    .sys32 { dir := dir, cond := c.getD 0b1110#4, coproc := coproc, opc1 := opc1, crn := crn, crm := crm,
             opc2 := opc2.getD 0b000#3, rt := rt }
  | .sys64 dir c _ coproc opc1 rt rt2 crm =>
    .sys64 { dir := dir, cond := c.getD 0b1110#4, coproc := coproc, opc1 := opc1, crm := crm, rt := rt, rt2 := rt2 }

/-! ## The encoder -/

/-- Bit 20 of the word for a direction (R96). -/
def bitOfDir : Dir → BitVec 1
  | .read => 1#1
  | .write => 0#1

/-- The A32 word of a SYS32 tuple (R96). -/
def wordOfSys32 (x : Sys32) : Word :=
  x.cond ++ 0b1110#4 ++ x.opc1 ++ bitOfDir x.dir ++ x.crn ++ x.rt ++ x.coproc ++ x.opc2 ++ 1#1 ++ x.crm

/-- The A32 word of a SYS64 tuple (R96). -/
def wordOfSys64 (x : Sys64) : Word :=
  x.cond ++ 0b1100010#7 ++ bitOfDir x.dir ++ x.rt2 ++ x.rt ++ x.coproc ++ x.opc1 ++ x.crm

/-- The SYS32 tuple of a 32-bit access to PAR (R93). -/
def sys32PAR (dir : Dir) (cond : BitVec 4) (rt : RegNo) : Sys32 :=
  { dir := dir, cond := cond, coproc := 0b1111#4, opc1 := 0b000#3, crn := 0b0111#4, crm := 0b0100#4, opc2 := 0b000#3, rt := rt }

/-- The SYS64 tuple of a 64-bit access to PAR (R93). -/
def sys64PAR (dir : Dir) (cond : BitVec 4) (rt rt2 : RegNo) : Sys64 :=
  { dir := dir, cond := cond, coproc := 0b1111#4, opc1 := 0b0000#4, crm := 0b0111#4, rt := rt, rt2 := rt2 }

/-- The tuple of an instruction (R93). -/
def tupleOf : Instr → Tuple
  | .mrc c t => .sys32 (sys32PAR .read c t)
  | .mcr c t => .sys32 (sys32PAR .write c t)
  | .mrrc c t t2 => .sys64 (sys64PAR .read c t t2)
  | .mcrr c t t2 => .sys64 (sys64PAR .write c t t2)

/-- The A32 word of an instruction (R96). -/
def encodeA32 : Instr → Word
  | .mrc c t => wordOfSys32 (sys32PAR .read c t)
  | .mcr c t => wordOfSys32 (sys32PAR .write c t)
  | .mrrc c t t2 => wordOfSys64 (sys64PAR .read c t t2)
  | .mcrr c t t2 => wordOfSys64 (sys64PAR .write c t t2)

/-- The words of an instruction in A32: one (R98). -/
def encode (i : Instr) : List Word := [encodeA32 i]

/-- The halfwords `hw1`, `hw2` of an instruction in T32, which exist for the condition 0b1110 only (R97). -/
def encodeT32 (i : Instr) : Option (Half × Half) :=
  if i.cond = 0b1110#4 then some ((encodeA32 i).extractLsb' 16 16, (encodeA32 i).extractLsb' 0 16) else none

/-! ## The opcode table (R96, R97) -/

/-- A row of the filled tables of R96 and R97: a word w is the instruction when w &&& mask = pattern, with the further premises of R96 and R100. -/
structure OpcodeRow where
  pattern : Word
  mask : Word
  deriving DecidableEq, Repr

def a32RowMRC : OpcodeRow := { pattern := 0x0E170F14#32, mask := 0x0FFF0FFF#32 }
def a32RowMCR : OpcodeRow := { pattern := 0x0E070F14#32, mask := 0x0FFF0FFF#32 }
def a32RowMRRC : OpcodeRow := { pattern := 0x0C500F07#32, mask := 0x0FF00FFF#32 }
def a32RowMCRR : OpcodeRow := { pattern := 0x0C400F07#32, mask := 0x0FF00FFF#32 }

/-- The word matches the row. -/
def OpcodeRow.holds (r : OpcodeRow) (w : Word) : Prop := w &&& r.mask = r.pattern

end Sys2Proof
end

