-- ==== Sys2Proof/Machine/State.lean ====
section
/-! DEFINITION. Everything the spec gives the machine, as plain data: PAR's instances, the synchronisation flags, the general
registers, the context and the configuration (R68), the program still to run (R17), and the counter of draws (log entry 5).
The reasons a step stops, and the machine after reset (R170, R171). -/

namespace Sys2Proof.Machine

/-- The Exception levels (R15, R160). -/
inductive EL where
  | el0
  | el1
  | el2
  | el3
  deriving DecidableEq, Repr

/-- The instances of PAR (R11): `par` is the single instance when not banked, `parS` and `parNs` the Secure and the
Non-secure instance when banked. -/
inductive Inst where
  | par
  | parS
  | parNs
  deriving DecidableEq, Repr

/-- One value per instance of PAR (R68). -/
structure Banks (α : Type) where
  par : α
  parS : α
  parNs : α
  deriving DecidableEq, Repr

/-- The context inputs a direct access reads (R15), "supplied at each step and changed by no rule". -/
structure Ctx where
  /-- `PSTATE.EL`. -/
  el : EL
  /-- `SCR.NS`. -/
  scrNs : BitVec 1
  /-- `EL2Enabled()`. -/
  el2Enabled : Bool
  /-- `ELUsingAArch32(EL2)`. -/
  el2UsingAArch32 : Bool
  /-- `HSTR.T7`. -/
  hstrT7 : BitVec 1
  /-- `HSTR_EL2.T7`. -/
  hstrEl2T7 : BitVec 1
  /-- The condition `{<c>}` passed (R18). -/
  condPassed : Bool
  deriving DecidableEq, Repr

/-- `S32`: a 32-bit result of a successful translation (R110). -/
structure S32Result where
  oa : BitVec 40
  ss : BitVec 1
  secureRegime : Bool
  ns : BitVec 1
  sh : BitVec 1
  nos : BitVec 1
  inner : BitVec 3
  outer : BitVec 2
  deriving DecidableEq, Repr

/-- `F32`: a 32-bit result of an aborted translation (R110). -/
structure F32Result where
  fs5 : BitVec 1
  fs : BitVec 5
  deriving DecidableEq, Repr

/-- `S64`: a 64-bit result of a successful translation (R110). -/
structure S64Result where
  attr : BitVec 8
  oa : BitVec 40
  secureRegime : Bool
  ns : BitVec 1
  sh : BitVec 2
  deriving DecidableEq, Repr

/-- `F64`: a 64-bit result of an aborted translation (R110). -/
structure F64Result where
  fstage : BitVec 1
  s2wlk : BitVec 1
  fst : BitVec 6
  deriving DecidableEq, Repr

/-- The result `res` of an Address translation instruction (R110). Which constructor it is, is an input (R116). -/
inductive ATResult where
  | s32 (r : S32Result)
  | f32 (r : F32Result)
  | s64 (r : S64Result)
  | f64 (r : F64Result)
  deriving DecidableEq, Repr

/-- One step of a program (R17): an instruction as an A32 word (R96), a T32 halfword pair (R97) or a tuple (R103), or one of
the two events (R83, R110). -/
inductive Item where
  | a32 (w : Word)
  | t32 (hw1 hw2 : Half)
  | tuple (t : Tuple)
  | atResult (inst : Inst) (res : ATResult)
  | contextSync
  deriving DecidableEq, Repr

/-- A step of a program with the context supplied at it (R15, R17). -/
structure Entry where
  ctx : Ctx
  item : Item
  deriving DecidableEq, Repr

/-- The machine's state. The configuration never changes (R173); the program and its contexts are inputs of the spec's machine
(R68) and stand here because a step takes nothing but a state (log entry 1). -/
structure State where
  /-- The configuration (R3). -/
  cfg : Config
  /-- The context of the current step (R15). -/
  ctx : Ctx
  /-- `P[inst]` (R10, R11): meaningful where the instance exists. -/
  par : Banks DWord
  /-- `unsynced[inst]` (R67): a write-back not yet followed by a Context synchronization event. -/
  unsynced : Banks Bool
  /-- `R[0]` to `R[15]` (R16). -/
  regs : Vector Word 16
  /-- The MODEL's own field: how many draws have been made (log entry 5). -/
  draws : Nat
  /-- The steps still to run, the next one first (R17). -/
  program : List Entry
  deriving DecidableEq, Repr

/-- The three exceptional outcomes of a direct access (R140 to R143), each terminal (R149). Nothing was written when one is
raised (R5), so the state before the instruction is the state at the fault. -/
inductive Fault where
  /-- `Undefined` (R140): raised by each of the four accesses when PAR is absent or at EL0 (R141). Safe: the spec ends the run here. -/
  | undefined
  /-- `A64SysTrap(target, code)` (R142): raised by each of the four accesses at EL1 under HSTR_EL2.T7. Safe: the spec ends the run here. -/
  | a64SysTrap (target : EL) (code : Nat)
  /-- `HypTrap(code)` (R143): raised by each of the four accesses at EL1 under HSTR.T7. Safe: the spec ends the run here. -/
  | hypTrap (code : Nat)
  deriving DecidableEq, Repr

/-- Why a result is not one an event may carry (R117; the vectors X1 to X7). -/
inductive ResultDefect where
  /-- S32 with a reserved Inner value (R29). -/
  | reservedInner
  /-- F32 with an FS code that is not listed, or not under FEAT_RAS (R40). -/
  | unlistedFS
  /-- F32 with FS5 set where it always returns 0 (R39). -/
  | externalAbortBit
  /-- S64 with the reserved SH value (R49). -/
  | reservedSH
  /-- F64 with an FST code that is not listed, or not under FEAT_RAS (R62). -/
  | unlistedFST
  deriving DecidableEq, Repr

/-- Why a step has no meaning: the spec's `require` (R5) and its refusals. All of them are safe: nothing can be proved of a
run that contains one. -/
inductive Refusal where
  /-- Raised by exec for an instruction without a meaning yet. Safe. -/
  | notModelled (mnemonic : String)
  /-- Raised by step for a word, halfword pair or tuple that decoding refuses (R103). Safe. -/
  | undecodable (why : DecodeError)
  /-- Raised by the four accesses for a register number R100 does not admit. Safe. -/
  | registerNumber
  /-- Raised by every step whose context breaks W1: EL3 without `HaveEL3 && EL3UsingAArch32` (R15). Safe. -/
  | contextW1
  /-- Raised by every step whose context breaks W2: EL2 without `HaveEL2` (R15). Safe. -/
  | contextW2
  /-- Raised by every step whose context breaks W3: `EL2Enabled` without `HaveEL2` (R15). Safe. -/
  | contextW3
  /-- Raised by the four accesses when the condition fails and the access would fault (R147). Safe. -/
  | failedConditionOnFault
  /-- Raised by the four accesses when the instance has a write-back that is not yet synchronised (R176). Safe. -/
  | unsynchronised (inst : Inst)
  /-- Raised by the write-back event when PAR is absent (R110, vector X9). Safe. -/
  | eventWithoutPAR
  /-- Raised by the write-back event for an instance that does not exist (R110, vector X8). Safe. -/
  | noSuchInst (inst : Inst)
  /-- Raised by the write-back event for a result that is not well formed (R117). Safe. -/
  | malformedResult (why : ResultDefect)
  /-- Raised by step when no step of the program is left (R17). Safe. -/
  | endOfProgram
  deriving DecidableEq, Repr

/-- The configuration of the reset state: DESIGN CHOICE, the spec fixes none (log entry 2). -/
def State.resetConfig : Config where
  parPresent := true
  haveEL2 := false
  haveEL3 := false
  el3UsingAArch32 := false
  paSize := 40
  haveRAS := false
  haveExtAbortClass := false
  syncRequired := true

/-- The context of the reset state: DESIGN CHOICE, it "has no reset value" (R171, log entry 3). -/
def State.resetCtx : Ctx where
  el := .el1
  scrNs := 0#1
  el2Enabled := false
  el2UsingAArch32 := false
  hstrT7 := 0#1
  hstrEl2T7 := 0#1
  condPassed := true

/-- The machine after reset: every bit of every instance a draw and no write-back outstanding (R170), every general register a
draw (R171), no program loaded (log entries 1, 4, 5). -/
def State.reset : State where
  cfg := State.resetConfig
  ctx := State.resetCtx
  par := { par := Config.draw 64 0, parS := Config.draw 64 1, parNs := Config.draw 64 2 }
  unsynced := { par := false, parS := false, parNs := false }
  regs := #v[Config.draw 32 3, Config.draw 32 4, Config.draw 32 5, Config.draw 32 6, Config.draw 32 7, Config.draw 32 8,
    Config.draw 32 9, Config.draw 32 10, Config.draw 32 11, Config.draw 32 12, Config.draw 32 13, Config.draw 32 14,
    Config.draw 32 15, Config.draw 32 16, Config.draw 32 17, Config.draw 32 18]
  draws := 19
  program := []

end Sys2Proof.Machine
end

