-- ==== Sys2Proof/Machine/Context.lean ====
section
/-! DEFINITION. The configuration and the context: which instances exist (R11), the premises W1 to W3 (R15), the access check (R146)
and the instance an access reaches (R12). -/

namespace Sys2Proof.Machine

/-- `Banked := HaveEL3 && EL3UsingAArch32` (R3). -/
def banked (cfg : Config) : Bool := cfg.haveEL3 && cfg.el3UsingAArch32

/-- The bounds of `PASize` (R3). -/
def paSizeOk (cfg : Config) : Bool := 32 ≤ cfg.paSize && cfg.paSize ≤ 40

/-- `exists(inst)` (R11). -/
def instExists (cfg : Config) : Inst → Bool
  | .par => cfg.parPresent && !banked cfg
  | .parS => cfg.parPresent && banked cfg
  | .parNs => cfg.parPresent && banked cfg

/-- The first of the premises W1, W2, W3 that a context breaks (R15). -/
def contextDefect (cfg : Config) (ctx : Ctx) : Option Refusal :=
  if ctx.el = .el3 ∧ banked cfg = false then some .contextW1
  else if ctx.el = .el2 ∧ cfg.haveEL2 = false then some .contextW2
  else if ctx.el2Enabled = true ∧ cfg.haveEL2 = false then some .contextW3
  else none

/-- What `AccessCheck` answers (R146). -/
inductive Check where
  | proceed
  | stop (f : Fault)
  deriving DecidableEq, Repr

/-- `AccessCheck(ctx, code)` (R146). -/
def accessCheck (cfg : Config) (ctx : Ctx) (code : Nat) : Check :=
  if cfg.parPresent = false then .stop .undefined
  else
    match ctx.el with
    | .el0 => .stop .undefined
    | .el1 =>
      if ctx.el2Enabled = true ∧ ctx.el2UsingAArch32 = false ∧ ctx.hstrEl2T7 = 1#1 then .stop (.a64SysTrap .el2 code)
      else if ctx.el2Enabled = true ∧ ctx.el2UsingAArch32 = true ∧ ctx.hstrT7 = 1#1 then .stop (.hypTrap code)
      else .proceed
    | .el2 => .proceed
    | .el3 => .proceed

/-- `SelectPAR(ctx)` (R12). -/
def selectPAR (cfg : Config) (ctx : Ctx) : Inst :=
  if ctx.el = .el3 then (if ctx.scrNs = 0#1 then .parS else .parNs)
  else if banked cfg then .parNs
  else .par

/-- The code of the 32-bit accesses (R144). -/
def code32 : Nat := 0x03

/-- The code of the 64-bit accesses (R144). -/
def code64 : Nat := 0x04

end Sys2Proof.Machine
end

