-- ==== Sys2Proof/Machine/Flags.lean ====
section
/-! DEFINITION. Conditions. No instruction writes a flag and State holds none (R18, R66); the condition of an access is the context
input `cond_passed`, and this file says what it does to the outcome of the access check (R18, R147). -/

namespace Sys2Proof.Machine

/-- What the access check and the condition make of an access (R147). -/
inductive Gate where
  /-- Both pass: the access is made. -/
  | access
  /-- The condition failed and the access would proceed: no effect at all (R18). -/
  | noEffect
  /-- The check stops the access and the condition passed. -/
  | fault (f : Fault)
  /-- The check would stop the access and the condition failed: refused (R147). -/
  | refuse
  deriving DecidableEq, Repr

/-- The condition against the tests (R147). -/
def gate (condPassed : Bool) : Check → Gate
  | .proceed => if condPassed then .access else .noEffect
  | .stop f => if condPassed then .fault f else .refuse

end Sys2Proof.Machine
end

