-- ==== Sys2Proof/Machine/Operands.lean ====
section
/-! DEFINITION. Operand forms: the register numbers each form admits (R100) and the two words of a 64-bit value (R8, R74). -/

namespace Sys2Proof.Machine

/-- The operand of MRC and MCR: t in 0 to 14 (R100). -/
def oneRegOk (t : RegNo) : Bool := regNoOk t

/-- The operands of MRRC: t and t2 in 0 to 14 and t ≠ t2 (R100). -/
def twoDestOk (t t2 : RegNo) : Bool := regNoOk t && regNoOk t2 && t != t2

/-- The operands of MCRR: t and t2 in 0 to 14, equal allowed (R100). -/
def twoSourceOk (t t2 : RegNo) : Bool := regNoOk t && regNoOk t2

/-- `v[31:0]`. -/
def lowWord (v : DWord) : Word := v.extractLsb' 0 32

/-- `v[63:32]`. -/
def highWord (v : DWord) : Word := v.extractLsb' 32 32

/-- `hi : lo`, concatenation with hi in the more significant bits (R4). -/
def joinWords (hi lo : Word) : DWord := hi ++ lo

/-- `v[31:0] <- lo`: bits 63:32 keep their value (R5, R13). -/
def replaceLow (v : DWord) (lo : Word) : DWord := joinWords (highWord v) lo

end Sys2Proof.Machine
end

