-- ==== Sys2Proof/Machine/Ops.lean ====
section
/-! DEFINITION. The named operations over registers and PAR, the raising of an exceptional outcome (R149), and the one shared body
of the four direct accesses (R120, R121, R130, R131). -/

namespace Sys2Proof.Machine

/-- The value of one instance. -/
def Banks.get {α : Type} (b : Banks α) : Inst → α
  | .par => b.par
  | .parS => b.parS
  | .parNs => b.parNs

/-- Replace the value of one instance. -/
def Banks.set {α : Type} (b : Banks α) (inst : Inst) (v : α) : Banks α :=
  match inst with
  | .par => { b with par := v }
  | .parS => { b with parS := v }
  | .parNs => { b with parNs := v }

/-- The same value for every instance. -/
def Banks.all {α : Type} (v : α) : Banks α := { par := v, parS := v, parNs := v }

/-- `R[t]` (R5, R16). -/
def State.reg (s : State) (t : RegNo) : Word := s.regs[t.toNat]'(t.isLt)

/-- `R[t] <- v` (R5, R16). -/
def State.setReg (s : State) (t : RegNo) (v : Word) : State := { s with regs := s.regs.set t.toNat v t.isLt }

/-- `P[inst] <- v`, all 64 bits (R5). -/
def State.setPAR (s : State) (inst : Inst) (v : DWord) : State := { s with par := s.par.set inst v }

/-- `unsynced[inst] <- true` (R110). -/
def State.markUnsynced (s : State) (inst : Inst) : State := { s with unsynced := s.unsynced.set inst true }

/-- `unsynced[inst] <- false` for every instance (R83). -/
def State.syncAll (s : State) : State := { s with unsynced := Banks.all false }

/-- n draws have been made (R5, log entry 5). -/
def State.drawn (s : State) (n : Nat) : State := { s with draws := s.draws + n }

/-- Move to the next list element (R17), under the context supplied with this one (R15). -/
def State.begin (s : State) (ctx : Ctx) (rest : List Entry) : State := { s with ctx := ctx, program := rest }

/-- `raise f` (R5, R149): the exceptional outcome is terminal and no write of the rule happens. -/
def takeException (f : Fault) : Host.Outcome State Fault Refusal := .fault f

/-- A direct access with the given code, whose move is `act` on the selected instance: the premises of R15, `AccessCheck` and the
condition (R146, R147), then the synchronisation premise (R176), then the move. -/
def directAccess (code : Nat) (act : Inst → State → State) (s : State) : Host.Outcome State Fault Refusal :=
  match contextDefect s.cfg s.ctx with
  | some r => .refused r
  | none =>
    match gate s.ctx.condPassed (accessCheck s.cfg s.ctx code) with
    | .fault f => takeException f
    | .refuse => .refused .failedConditionOnFault
    | .noEffect => .next s
    | .access =>
      if s.cfg.syncRequired && s.unsynced.get (selectPAR s.cfg s.ctx) then
        .refused (.unsynchronised (selectPAR s.cfg s.ctx))
      else .next (act (selectPAR s.cfg s.ctx) s)

/-- A direct access whose register numbers are admitted (R100). -/
def registerAccess (regsOk : Bool) (code : Nat) (act : Inst → State → State) (s : State) :
    Host.Outcome State Fault Refusal :=
  if regsOk then directAccess code act s else .refused .registerNumber

/-- What a step of a program turns out to be: an instruction, an event, or a step that decoding refuses (R103). -/
inductive Fetched where
  | instr (i : Instr)
  | atResult (inst : Inst) (res : ATResult)
  | contextSync
  | refuse (r : Refusal)
  deriving DecidableEq, Repr

/-- Decoding's answer as a step. -/
def fetchedOf : Except DecodeError Instr → Fetched
  | .ok i => .instr i
  | .error e => .refuse (.undecodable e)

/-- Read one step of a program (R17, R103). -/
def fetchItem : Item → Fetched
  | .a32 w => fetchedOf (decodeA32 w)
  | .t32 hw1 hw2 => fetchedOf (decodeT32 hw1 hw2)
  | .tuple t => fetchedOf (decodeTuple t)
  | .atResult inst res => .atResult inst res
  | .contextSync => .contextSync

/-- The AArch64 view: "PAR bits [63:0] are architecturally mapped to AArch64 System register PAR_EL1[63:0]" (R14). Which instance
is mapped when the register is banked is not said, so there is no view then (log entry 22). -/
def State.parEl1 (s : State) : Option DWord :=
  if instExists s.cfg .par then some (s.par.get .par) else none

end Sys2Proof.Machine
end

