-- ==== Sys2Proof/Machine/ParView.lean ====
section
/-! DEFINITION. Reading a result back (R118): the format of a value (R19), its fields, and the tables that give their values a
meaning (R25, R28 to R31, R40, R49, R59, R60, R62). -/

namespace Sys2Proof.Machine

/-- The four formats (R19). -/
inductive Format where
  | s32
  | f32
  | s64
  | f64
  deriving DecidableEq, Repr

/-- Bit 0, F, in every format (R19). -/
def bitF (v : DWord) : BitVec 1 := v.extractLsb' 0 1

/-- Bit 11, LPAE, in every format (R19). -/
def bitLPAE (v : DWord) : BitVec 1 := v.extractLsb' 11 1

/-- The format of a value an Address translation result wrote (R19). -/
def formatOf (v : DWord) : Format :=
  if bitLPAE v = 0#1 then (if bitF v = 0#1 then .s32 else .f32)
  else (if bitF v = 0#1 then .s64 else .f64)

/-- What S32 reports of the output address (R23, R31, R118). -/
inductive PaView where
  /-- SS = 0: OA[31:12]. -/
  | page (oa31To12 : BitVec 20)
  /-- SS = 1: OA[31:24] and OA[39:32]. -/
  | supersection (oa31To24 oa39To32 : BitVec 8)
  deriving DecidableEq, Repr

/-- The fields of an S32 value (R21, R118); bits 63:32 are not meaningful. -/
structure S32View where
  pa : PaView
  nos : BitVec 1
  ns : BitVec 1
  impDef8 : BitVec 1
  sh : BitVec 1
  inner : BitVec 3
  outer : BitVec 2
  deriving DecidableEq, Repr

/-- The fields of an F32 value (R33, R118); bits 63:32 are not meaningful. -/
structure F32View where
  impDef31To16 : BitVec 16
  fs5 : BitVec 1
  fs : BitVec 5
  deriving DecidableEq, Repr

/-- The fields of an S64 value (R42, R118). -/
structure S64View where
  attr : BitVec 8
  oa39To12 : BitVec 28
  impDef10 : BitVec 1
  ns : BitVec 1
  sh : BitVec 2
  deriving DecidableEq, Repr

/-- The fields of an F64 value (R52, R118). -/
structure F64View where
  impDef63To56 : BitVec 8
  impDef55To52 : BitVec 4
  impDef51To48 : BitVec 4
  fstage : BitVec 1
  s2wlk : BitVec 1
  fst : BitVec 6
  deriving DecidableEq, Repr

/-- A value of PAR as software decodes it (R118). -/
inductive ParView where
  | s32 (r : S32View)
  | f32 (r : F32View)
  | s64 (r : S64View)
  | f64 (r : F64View)
  deriving DecidableEq, Repr

/-- The address S32 reports: bit 1, SS, tells the two packings apart (R31, R118). -/
def paView (v : DWord) : PaView :=
  if v.extractLsb' 1 1 = 0#1 then .page (v.extractLsb' 12 20)
  else .supersection (v.extractLsb' 24 8) (v.extractLsb' 16 8)

/-- Decode a value read from PAR (R118): the format first, then its own fields. -/
def parView (v : DWord) : ParView :=
  match formatOf v with
  | .s32 =>
    .s32 { pa := paView v, nos := v.extractLsb' 10 1, ns := v.extractLsb' 9 1, impDef8 := v.extractLsb' 8 1,
           sh := v.extractLsb' 7 1, inner := v.extractLsb' 4 3, outer := v.extractLsb' 2 2 }
  | .f32 => .f32 { impDef31To16 := v.extractLsb' 16 16, fs5 := v.extractLsb' 6 1, fs := v.extractLsb' 1 5 }
  | .s64 =>
    .s64 { attr := v.extractLsb' 56 8, oa39To12 := v.extractLsb' 12 28, impDef10 := v.extractLsb' 10 1,
           ns := v.extractLsb' 9 1, sh := v.extractLsb' 7 2 }
  | .f64 =>
    .f64 { impDef63To56 := v.extractLsb' 56 8, impDef55To52 := v.extractLsb' 52 4, impDef51To48 := v.extractLsb' 48 4,
           fstage := v.extractLsb' 9 1, s2wlk := v.extractLsb' 8 1, fst := v.extractLsb' 1 6 }

/-! ## What the field values mean -/

/-- Shareability of a memory region (R25, R28, R49). -/
inductive Shareability where
  | nonShareable
  | outerShareable
  | innerShareable
  deriving DecidableEq, Repr

/-- S32.SH with S32.NOS, which is meaningful when SH is 1 (R25, R28). -/
def shareabilityS32 (sh nos : BitVec 1) : Shareability :=
  if sh = 0#1 then .nonShareable else if nos = 0#1 then .outerShareable else .innerShareable

/-- S64.SH; 0b01 is reserved (R49). -/
def shareabilityS64 (sh : BitVec 2) : Option Shareability :=
  if sh = 0b00#2 then some .nonShareable
  else if sh = 0b10#2 then some .outerShareable
  else if sh = 0b11#2 then some .innerShareable
  else none

/-- The permitted values of S32.Inner (R29). -/
inductive InnerAttr where
  | nonCacheable
  | deviceNGnRnE
  | deviceNGnRE
  | writeBackWriteAllocate
  | writeThrough
  | writeBackNoWriteAllocate
  deriving DecidableEq, Repr

/-- The table of R29; 0b010 and 0b100 are reserved. -/
def innerTable : List (BitVec 3 × InnerAttr) :=
  [(0b000#3, .nonCacheable), (0b001#3, .deviceNGnRnE), (0b011#3, .deviceNGnRE),
   (0b101#3, .writeBackWriteAllocate), (0b110#3, .writeThrough), (0b111#3, .writeBackNoWriteAllocate)]

/-- The meaning of S32.Inner (R29). -/
def innerAttr (v : BitVec 3) : Option InnerAttr := innerTable.lookup v

/-- The values of S32.Outer (R30), all permitted. -/
inductive OuterAttr where
  | nonCacheable
  | writeBackWriteAllocate
  | writeThroughNoWriteAllocate
  | writeBackNoWriteAllocate
  deriving DecidableEq, Repr

/-- The meaning of S32.Outer (R30). -/
def outerAttr (v : BitVec 2) : OuterAttr :=
  if v = 0b00#2 then .nonCacheable
  else if v = 0b01#2 then .writeBackWriteAllocate
  else if v = 0b10#2 then .writeThroughNoWriteAllocate
  else .writeBackNoWriteAllocate

/-- The translation stage of F64.FSTAGE (R59). -/
inductive Stage where
  | stage1
  | stage2
  deriving DecidableEq, Repr

/-- The meaning of F64.FSTAGE (R59). -/
def faultStage (fstage : BitVec 1) : Stage := if fstage = 0#1 then .stage1 else .stage2

/-- F64.S2WLK is 1: "the translation aborted because of a stage 2 fault during a stage 1 translation table walk" (R60). -/
def stage2DuringStage1Walk (s2wlk : BitVec 1) : Bool := s2wlk == 1#1

/-- The faults a translation can report (R40, R62), each with its level where it has one. -/
inductive FaultStatus where
  | alignment
  | accessFlag (level : Nat)
  | instructionCacheMaintenance
  | translation (level : Nat)
  | domain (level : Nat)
  | externalAbortOnWalk (level : Nat)
  | permission (level : Nat)
  | tlbConflict
  /-- "Synchronous parity or ECC error on memory access, not on translation table walk." -/
  | parityOnAccess
  | parityOnWalk (level : Nat)
  | addressSizeInBaseRegister
  | addressSize (level : Nat)
  deriving DecidableEq, Repr

/-- A row of a fault status table: the code, its meaning, and whether it applies only "When FEAT_RAS is not implemented". -/
structure StatusRow (w : Nat) where
  code : BitVec w
  status : FaultStatus
  withoutRASOnly : Bool
  deriving DecidableEq, Repr

/-- The 16 rows of F32.FS[4:0] (R40). -/
def fsTable : List (StatusRow 5) :=
  [⟨0b00001#5, .alignment, false⟩, ⟨0b00011#5, .accessFlag 1, false⟩, ⟨0b00100#5, .instructionCacheMaintenance, false⟩,
   ⟨0b00101#5, .translation 1, false⟩, ⟨0b00110#5, .accessFlag 2, false⟩, ⟨0b00111#5, .translation 2, false⟩,
   ⟨0b01001#5, .domain 1, false⟩, ⟨0b01011#5, .domain 2, false⟩, ⟨0b01100#5, .externalAbortOnWalk 1, false⟩,
   ⟨0b01101#5, .permission 1, false⟩, ⟨0b01110#5, .externalAbortOnWalk 2, false⟩, ⟨0b01111#5, .permission 2, false⟩,
   ⟨0b10000#5, .tlbConflict, false⟩, ⟨0b11001#5, .parityOnAccess, true⟩, ⟨0b11100#5, .parityOnWalk 1, true⟩,
   ⟨0b11110#5, .parityOnWalk 2, true⟩]

/-- The 20 rows of F64.FST (R62). -/
def fstTable : List (StatusRow 6) :=
  [⟨0b000000#6, .addressSizeInBaseRegister, false⟩, ⟨0b000001#6, .addressSize 1, false⟩, ⟨0b000010#6, .addressSize 2, false⟩,
   ⟨0b000011#6, .addressSize 3, false⟩, ⟨0b000101#6, .translation 1, false⟩, ⟨0b000110#6, .translation 2, false⟩,
   ⟨0b000111#6, .translation 3, false⟩, ⟨0b001001#6, .accessFlag 1, false⟩, ⟨0b001010#6, .accessFlag 2, false⟩,
   ⟨0b001011#6, .accessFlag 3, false⟩, ⟨0b001101#6, .permission 1, false⟩, ⟨0b001110#6, .permission 2, false⟩,
   ⟨0b001111#6, .permission 3, false⟩, ⟨0b010101#6, .externalAbortOnWalk 1, false⟩, ⟨0b010110#6, .externalAbortOnWalk 2, false⟩,
   ⟨0b010111#6, .externalAbortOnWalk 3, false⟩, ⟨0b011101#6, .parityOnWalk 1, true⟩, ⟨0b011110#6, .parityOnWalk 2, true⟩,
   ⟨0b011111#6, .parityOnWalk 3, true⟩, ⟨0b110000#6, .tlbConflict, false⟩]

/-- A row applies in an implementation with or without FEAT_RAS (R40, R62). -/
def StatusRow.applies {w : Nat} (r : StatusRow w) (haveRAS : Bool) : Bool := !(r.withoutRASOnly && haveRAS)

/-- The meaning of a fault status code by its table, where it is listed and applies (R40, R62). -/
def statusIn {w : Nat} (table : List (StatusRow w)) (haveRAS : Bool) (code : BitVec w) : Option FaultStatus :=
  (table.find? fun r => r.code == code && r.applies haveRAS).map StatusRow.status

/-- The meaning of F32.FS[4:0] (R40). -/
def fsStatus (haveRAS : Bool) (fs : BitVec 5) : Option FaultStatus := statusIn fsTable haveRAS fs

/-- The meaning of F64.FST (R62). -/
def fstStatus (haveRAS : Bool) (fst : BitVec 6) : Option FaultStatus := statusIn fstTable haveRAS fst

end Sys2Proof.Machine
end

