-- ==== Sys2Proof/Machine/AtResult.lean ====
section
/-! DEFINITION. The two events of the instruction stream: the write-back of an Address translation instruction's result (R110 to
R117) and the Context synchronization event (R83). -/

namespace Sys2Proof.Machine

/-! ## Which results an event may carry (R117) -/

/-- The codes of External aborts and of parity or ECC errors, with which FS[5] may be 1 (R39, D22). -/
def externalAbortCodes : List (BitVec 5) := [0b01100#5, 0b01110#5, 0b11001#5, 0b11100#5, 0b11110#5]

/-- `FS5` is 0 unless the implementation classifies External aborts and the code is one of theirs (R39). -/
def fs5Ok (classifies : Bool) (fs5 : BitVec 1) (fs : BitVec 5) : Bool :=
  fs5 == 0#1 || (classifies && externalAbortCodes.contains fs)

/-- Why a result is not well formed, if it is not (R117). -/
def resultDefect (cfg : Config) : ATResult → Option ResultDefect
  | .s32 r => if (innerAttr r.inner).isSome then none else some .reservedInner
  | .f32 r =>
    if (fsStatus cfg.haveRAS r.fs).isSome then (if fs5Ok cfg.haveExtAbortClass r.fs5 r.fs then none else some .externalAbortBit)
    else some .unlistedFS
  | .s64 r => if (shareabilityS64 r.sh).isSome then none else some .reservedSH
  | .f64 r => if (fstStatus cfg.haveRAS r.fst).isSome then none else some .unlistedFST

/-! ## The value written (R111 to R114) -/

/-- The bits a result leaves open: the draws of R111 to R113 and the `ImpDef` fields (R3). -/
structure FreeBits where
  /-- Bits 63:32 of a 32-bit format: `draw_32()` (R22, R34). -/
  upper : BitVec 32
  /-- The unimplemented bits of OA are taken from here: `draw_(40-PASize)()` (R31). -/
  oa : BitVec 40
  /-- NOS when SH is 0 (R25). -/
  nos : BitVec 1
  /-- NS of a Non-secure regime (R26, R48). -/
  ns : BitVec 1
  s32Bit8 : BitVec 1
  f32Bits31To16 : BitVec 16
  s64Bit10 : BitVec 1
  f64Bits63To56 : BitVec 8
  f64Bits55To52 : BitVec 4
  f64Bits51To48 : BitVec 4
  deriving DecidableEq, Repr

/-- How many draws one event takes (log entry 5). -/
def drawsPerEvent : Nat := 4

/-- The open bits of the event whose first draw is the n-th of the run. -/
def freeBits (n : Nat) : FreeBits where
  upper := Config.draw 32 n
  oa := Config.draw 40 (n + 1)
  nos := Config.draw 1 (n + 2)
  ns := Config.draw 1 (n + 3)
  s32Bit8 := Config.impDefS32Bit8 n
  f32Bits31To16 := Config.impDefF32Bits31To16 n
  s64Bit10 := Config.impDefS64Bit10 n
  f64Bits63To56 := Config.impDefF64Bits63To56 n
  f64Bits55To52 := Config.impDefF64Bits55To52 n
  f64Bits51To48 := Config.impDefF64Bits51To48 n

/-- Ones in bits paSize-1 to 0. -/
def implementedMask (paSize : Nat) : BitVec 40 := BitVec.ofNat 40 (2 ^ paSize - 1)

/-- `OA'` of R111: a Supersection's OA with its unimplemented bits UNKNOWN. -/
def reportedOA (paSize : Nat) (fb : FreeBits) (r : S32Result) : BitVec 40 :=
  if r.ss = 1#1 ∧ paSize < 40 then
    (fb.oa &&& ~~~ implementedMask paSize) ||| (r.oa &&& implementedMask paSize)
  else r.oa

/-- The PA field of S32 (R23, R31): `OA[31:12]`, or `OA[31:24] : OA[39:32] : 0b0000` for a Supersection. -/
def paFieldS32 (ss : BitVec 1) (oa : BitVec 40) : BitVec 20 :=
  if ss = 0#1 then oa.extractLsb' 12 20
  else oa.extractLsb' 24 8 ++ oa.extractLsb' 32 8 ++ 0b0000#4

/-- NS: the event's bit for a Secure regime, a draw for a Non-secure one (R26, R48). -/
def nsBit (fb : FreeBits) (secureRegime : Bool) (ns : BitVec 1) : BitVec 1 := if secureRegime then ns else fb.ns

/-- NOS: the event's bit when SH is 1, a draw when SH is 0 (R25). -/
def nosBit (fb : FreeBits) (sh nos : BitVec 1) : BitVec 1 := if sh = 1#1 then nos else fb.nos

/-- `Value(S32 r)` (R111). -/
def valueS32 (paSize : Nat) (fb : FreeBits) (r : S32Result) : DWord :=
  fb.upper ++ paFieldS32 r.ss (reportedOA paSize fb r) ++ 0#1 ++ nosBit fb r.sh r.nos ++ nsBit fb r.secureRegime r.ns
    ++ fb.s32Bit8 ++ r.sh ++ r.inner ++ r.outer ++ r.ss ++ 0#1

/-- `Value(F32 r)` (R112). -/
def valueF32 (fb : FreeBits) (r : F32Result) : DWord :=
  fb.upper ++ fb.f32Bits31To16 ++ 0b0000#4 ++ 0#1 ++ 0b0000#4 ++ r.fs5 ++ r.fs ++ 1#1

/-- `Value(S64 r)` (R113). -/
def valueS64 (fb : FreeBits) (r : S64Result) : DWord :=
  r.attr ++ 0x0000#16 ++ r.oa.extractLsb' 12 28 ++ 1#1 ++ fb.s64Bit10 ++ nsBit fb r.secureRegime r.ns ++ r.sh
    ++ 0b000000#6 ++ 0#1

/-- `Value(F64 r)` (R114). -/
def valueF64 (fb : FreeBits) (r : F64Result) : DWord :=
  fb.f64Bits63To56 ++ fb.f64Bits55To52 ++ fb.f64Bits51To48 ++ 0#36 ++ 1#1 ++ 0#1 ++ r.fstage ++ r.s2wlk ++ 0#1
    ++ r.fst ++ 1#1

/-- `Value(res)` (R110). -/
def valueOf (paSize : Nat) (fb : FreeBits) : ATResult → DWord
  | .s32 r => valueS32 paSize fb r
  | .f32 r => valueF32 fb r
  | .s64 r => valueS64 fb r
  | .f64 r => valueF64 fb r

/-! ## The events -/

/-- The effect of `ATResult(inst, res)` (R110): all 64 bits of one instance at once, and its synchronisation flag. -/
def writeBack (inst : Inst) (res : ATResult) (s : State) : State :=
  ((s.setPAR inst (valueOf s.cfg.paSize (freeBits s.draws) res)).markUnsynced inst).drawn drawsPerEvent

/-- Why an `ATResult(inst, res)` "is not an event of the machine" (R110), if it is not: its context (R15), the register absent, the
instance absent (R11), or the result not well formed (R117). -/
def eventDefect (cfg : Config) (ctx : Ctx) (inst : Inst) (res : ATResult) : Option Refusal :=
  match contextDefect cfg ctx with
  | some r => some r
  | none =>
    if cfg.parPresent = false then some .eventWithoutPAR
    else if instExists cfg inst = false then some (.noSuchInst inst)
    else (resultDefect cfg res).map Refusal.malformedResult

/-- The event `ATResult(inst, res)` (R110), under its precondition. -/
def execATResult (inst : Inst) (res : ATResult) (s : State) : Host.Outcome State Fault Refusal :=
  match eventDefect s.cfg s.ctx inst res with
  | some r => .refused r
  | none => .next (writeBack inst res s)

/-- The instance the spec recommends for a result: the one a direct access from the same context would reach (R115). -/
def recommendedInst (cfg : Config) (ctx : Ctx) : Inst := selectPAR cfg ctx

/-- The event `ContextSync` (R83). -/
def execContextSync (s : State) : Host.Outcome State Fault Refusal :=
  match contextDefect s.cfg s.ctx with
  | some r => .refused r
  | none => .next s.syncAll

end Sys2Proof.Machine
end

