-- ==== Sys2Proof/Machine/Access32.lean ====
section
/-! DEFINITION. The 32-bit direct accesses MRC and MCR (R120, R121). -/

namespace Sys2Proof.Machine

/-- `R[t] <- P[inst][31:0]` (R120). -/
def moveMRC (t : RegNo) (inst : Inst) (s : State) : State := s.setReg t (lowWord (s.par.get inst))

/-- `P[inst][31:0] <- R[t]`, bits 63:32 keep their value (R121). -/
def moveMCR (t : RegNo) (inst : Inst) (s : State) : State := s.setPAR inst (replaceLow (s.par.get inst) (s.reg t))

/-- MRC (R120). -/
def execMrc (t : RegNo) (s : State) : Host.Outcome State Fault Refusal :=
  registerAccess (oneRegOk t) code32 (moveMRC t) s

/-- MCR (R121). -/
def execMcr (t : RegNo) (s : State) : Host.Outcome State Fault Refusal :=
  registerAccess (oneRegOk t) code32 (moveMCR t) s

end Sys2Proof.Machine
end

