-- ==== Sys2Proof/Machine/Access64.lean ====
section
/-! DEFINITION. The 64-bit direct accesses MRRC and MCRR (R130, R131). -/

namespace Sys2Proof.Machine

/-- `R[t] <- v[31:0]`, `R[t2] <- v[63:32]` of one 64-bit read v (R74, R77, R130). -/
def moveMRRC (t t2 : RegNo) (inst : Inst) (s : State) : State :=
  (s.setReg t (lowWord (s.par.get inst))).setReg t2 (highWord (s.par.get inst))

/-- `P[inst] <- R[t2] : R[t]`, all 64 bits at once (R74, R131). -/
def moveMCRR (t t2 : RegNo) (inst : Inst) (s : State) : State := s.setPAR inst (joinWords (s.reg t2) (s.reg t))

/-- MRRC (R130). -/
def execMrrc (t t2 : RegNo) (s : State) : Host.Outcome State Fault Refusal :=
  registerAccess (twoDestOk t t2) code64 (moveMRRC t t2) s

/-- MCRR (R131). -/
def execMcrr (t t2 : RegNo) (s : State) : Host.Outcome State Fault Refusal :=
  registerAccess (twoSourceOk t t2) code64 (moveMCRR t t2) s

end Sys2Proof.Machine
end

