-- ==== Sys2Proof/Machine/Dispatch.lean ====
section
/-! DEFINITION. One arm per constructor of Instr (R93). -/

namespace Sys2Proof.Machine

def exec (i : Instr) (s : State) : Host.Outcome State Fault Refusal :=
  match i with
  | .mrc _ t => Sys2Proof.Machine.execMrc t s
  | .mcr _ t => Sys2Proof.Machine.execMcr t s
  | .mrrc _ t t2 => Sys2Proof.Machine.execMrrc t t2 s
  | .mcrr _ t t2 => Sys2Proof.Machine.execMcrr t t2 s

end Sys2Proof.Machine
end

