-- ==== Sys2Proof/Machine/Step.lean ====
section
/-! DEFINITION. One step: take the next element of the program, under its own context, and run it (R17). -/

namespace Sys2Proof.Machine

/-- One step of the machine (R17): the head of the program is removed and its context supplied, then the instruction or the
event is run. -/
def step (s : State) : Host.Outcome State Fault Refusal :=
  match s.program with
  | [] => .refused .endOfProgram
  | e :: rest =>
    match fetchItem e.item with
    | .instr i => exec i (s.begin e.ctx rest)
    | .atResult inst res => execATResult inst res (s.begin e.ctx rest)
    | .contextSync => execContextSync (s.begin e.ctx rest)
    | .refuse r => .refused r

/-- The state with an A32 instruction word placed where step takes its next step from: at the head of the program, under the
context the state already has (log entry 1). -/
def State.withFetchWord (s : State) (nbits w : Nat) : State :=
  { s with program := { ctx := s.ctx, item := .a32 (BitVec.ofNat 32 (w % 2 ^ nbits)) } :: s.program }

end Sys2Proof.Machine
end

