-- ==== Sys2Proof/Safety.lean ====
section
/-! DEFINITION. The terms claims are stated in: when a context is well formed, when an access is UNDEFINED or trapped, which instance it
reaches and when it is ready to complete, each written out from the spec's own conditions over raw fields; the source's
pseudocode of an access; and the invariant every step keeps. -/

namespace Sys2Proof.Machine

/-- W1, W2 and W3 (R15). -/
abbrev State.ContextOk (s : State) : Prop :=
  (s.ctx.el = .el3 → s.cfg.haveEL3 = true ∧ s.cfg.el3UsingAArch32 = true) ∧
  (s.ctx.el = .el2 → s.cfg.haveEL2 = true) ∧
  (s.ctx.el2Enabled = true → s.cfg.haveEL2 = true)

/-- The two causes of UNDEFINED (R141): the register is absent, or the access is made at EL0. -/
abbrev State.AccessUndefined (s : State) : Prop := s.cfg.parPresent = false ∨ s.ctx.el = .el0

/-- The condition of `AArch64.AArch32SystemAccessTrap` (R142) where the access is not UNDEFINED. -/
abbrev State.AccessTrapsToA64 (s : State) : Prop :=
  s.cfg.parPresent = true ∧ s.ctx.el = .el1 ∧
    s.ctx.el2Enabled = true ∧ s.ctx.el2UsingAArch32 = false ∧ s.ctx.hstrEl2T7 = 1#1

/-- The condition of `AArch32.TakeHypTrapException` (R143) where the access is not UNDEFINED. -/
abbrev State.AccessTrapsToHyp (s : State) : Prop :=
  s.cfg.parPresent = true ∧ s.ctx.el = .el1 ∧
    s.ctx.el2Enabled = true ∧ s.ctx.el2UsingAArch32 = true ∧ s.ctx.hstrT7 = 1#1

/-- None of the exceptional branches of R146 applies. -/
abbrev State.AccessProceeds (s : State) : Prop :=
  ¬ s.AccessUndefined ∧ ¬ s.AccessTrapsToA64 ∧ ¬ s.AccessTrapsToHyp

/-- The instance an access reaches (R12, R160), one line per row. -/
abbrev State.Reaches (s : State) (inst : Inst) : Prop :=
  (s.ctx.el = .el3 ∧ s.ctx.scrNs = 0#1 ∧ inst = .parS) ∨
  (s.ctx.el = .el3 ∧ s.ctx.scrNs = 1#1 ∧ inst = .parNs) ∨
  ((s.ctx.el = .el1 ∨ s.ctx.el = .el2) ∧ (s.cfg.haveEL3 = true ∧ s.cfg.el3UsingAArch32 = true) ∧ inst = .parNs) ∨
  ((s.ctx.el = .el1 ∨ s.ctx.el = .el2) ∧ ¬ (s.cfg.haveEL3 = true ∧ s.cfg.el3UsingAArch32 = true) ∧ inst = .par)

/-- The synchronisation premise of R176. -/
abbrev State.Synchronised (s : State) (inst : Inst) : Prop :=
  s.cfg.syncRequired = true → s.unsynced.get inst = false

/-- An access completes with its effect on this instance: the spec's conditions for executing normally (R15, R146, R18, R12, R176). -/
abbrev State.AccessReady (s : State) (inst : Inst) : Prop :=
  s.ContextOk ∧ s.AccessProceeds ∧ s.ctx.condPassed = true ∧ s.Reaches inst ∧ s.Synchronised inst

/-- The source's pseudocode of an access, branch for branch (R120, R121, R130, R131): `assign` is the assignment that names an
instance, `code` the argument of the two trap calls. -/
def sourceAccess (s : State) (code : Nat) (assign : Inst → Host.Outcome State Fault Refusal) : Host.Outcome State Fault Refusal :=
  match s.ctx.el with
  | .el0 => .fault .undefined
  | .el1 =>
    if s.ctx.el2Enabled && !s.ctx.el2UsingAArch32 && s.ctx.hstrEl2T7 == 1#1 then .fault (.a64SysTrap .el2 code)
    else if s.ctx.el2Enabled && s.ctx.el2UsingAArch32 && s.ctx.hstrT7 == 1#1 then .fault (.hypTrap code)
    else if s.cfg.haveEL3 && s.cfg.el3UsingAArch32 then assign .parNs
    else assign .par
  | .el2 =>
    if s.cfg.haveEL3 && s.cfg.el3UsingAArch32 then assign .parNs
    else assign .par
  | .el3 =>
    if s.ctx.scrNs == 0#1 then assign .parS
    else assign .parNs

/-- The source's pseudocode where the register is present; UNDEFINED where it is absent (R2, C3). -/
def presentAccess (s : State) (code : Nat) (assign : Inst → Host.Outcome State Fault Refusal) : Host.Outcome State Fault Refusal :=
  if s.cfg.parPresent then sourceAccess s code assign else .fault .undefined

/-- An access in the spec's own notation (R120, R121, R130, R131): a failed condition (R147), the source's pseudocode, and the premise
of R176 where it names an instance. -/
def ruleAccess (s : State) (code : Nat) (assign : Inst → State) : Host.Outcome State Fault Refusal :=
  if s.ctx.condPassed then
    presentAccess s code fun inst =>
      if s.cfg.syncRequired && s.unsynced.get inst then .refused (.unsynchronised inst) else .next (assign inst)
  else
    match presentAccess s code fun _ => .next s with
    | .next t => .next t
    | .fault _ => .refused .failedConditionOnFault
    | .refused r => .refused r

/-- The argument of the trap calls: 0x03 for the 32-bit accesses, 0x04 for the 64-bit ones (R144). -/
def accessCode : Instr → Nat
  | .mrc _ _ => 0x03
  | .mcr _ _ => 0x03
  | .mrrc _ _ _ => 0x04
  | .mcrr _ _ _ => 0x04

/-- What a completed access did with the instance it reached (R120, R121, R130, R131): s is the state before it, u the state after. -/
def AccessDid (i : Instr) (inst : Inst) (s u : State) : Prop :=
  match i with
  | .mrc _ t => u.reg t = (s.par.get inst).extractLsb' 0 32
  | .mcr _ t => u.par.get inst = (s.par.get inst).extractLsb' 32 32 ++ s.reg t
  | .mrrc _ t t2 => u.reg t = (s.par.get inst).extractLsb' 0 32 ∧ u.reg t2 = (s.par.get inst).extractLsb' 32 32
  | .mcrr _ t t2 => u.par.get inst = s.reg t2 ++ s.reg t

/-- Apply a function to the next state, where there is one; a stop stays as it is. -/
def mapNext (f : State → State) : Host.Outcome State Fault Refusal → Host.Outcome State Fault Refusal
  | .next t => .next (f t)
  | .fault e => .fault e
  | .refused r => .refused r

/-- A state without the stored values: every instance and every general register made 0, all else kept. -/
def State.eraseValues (s : State) : State := { s with par := Banks.all 0#64, regs := Vector.replicate 16 0#32 }

/-- What software decodes from a value says of the result that wrote it (R118), format by format: a field is compared where R118
calls it meaningful. -/
def ReadsBackAs (paSize : Nat) : ATResult → ParView → Prop
  | .s32 r, .s32 v =>
    (match v.pa with
      | .page pa => r.ss = 0#1 ∧ pa = r.oa.extractLsb' 12 20
      | .supersection mid top =>
        r.ss = 1#1 ∧ mid = r.oa.extractLsb' 24 8 ∧ ∀ k, k < 8 → 32 + k < paSize → top.getLsbD k = r.oa.getLsbD (32 + k)) ∧
    v.sh = r.sh ∧ (r.sh = 1#1 → v.nos = r.nos) ∧ (r.secureRegime = true → v.ns = r.ns) ∧ v.inner = r.inner ∧ v.outer = r.outer
  | .f32 r, .f32 v => v.fs5 = r.fs5 ∧ v.fs = r.fs
  | .s64 r, .s64 v =>
    v.attr = r.attr ∧ v.oa39To12 = r.oa.extractLsb' 12 28 ∧ (r.secureRegime = true → v.ns = r.ns) ∧ v.sh = r.sh
  | .f64 r, .f64 v => v.fstage = r.fstage ∧ v.s2wlk = r.s2wlk ∧ v.fst = r.fst
  | _, _ => False

/-- The values an event may carry (R117), row by row of its table. -/
def PermittedResult (cfg : Config) : ATResult → Prop
  | .s32 r => r.inner ∈ [0b000#3, 0b001#3, 0b011#3, 0b101#3, 0b110#3, 0b111#3]
  | .f32 r =>
    (r.fs ∈ [0b00001#5, 0b00011#5, 0b00100#5, 0b00101#5, 0b00110#5, 0b00111#5, 0b01001#5, 0b01011#5, 0b01100#5, 0b01101#5,
        0b01110#5, 0b01111#5, 0b10000#5] ∨
      (cfg.haveRAS = false ∧ r.fs ∈ [0b11001#5, 0b11100#5, 0b11110#5])) ∧
    (r.fs5 = 1#1 → cfg.haveExtAbortClass = true ∧ r.fs ∈ [0b01100#5, 0b01110#5, 0b11001#5, 0b11100#5, 0b11110#5])
  | .s64 r => r.sh ∈ [0b00#2, 0b10#2, 0b11#2]
  | .f64 r =>
    r.fst ∈ [0b000000#6, 0b000001#6, 0b000010#6, 0b000011#6, 0b000101#6, 0b000110#6, 0b000111#6, 0b001001#6, 0b001010#6,
        0b001011#6, 0b001101#6, 0b001110#6, 0b001111#6, 0b010101#6, 0b010110#6, 0b010111#6, 0b110000#6] ∨
      (cfg.haveRAS = false ∧ r.fst ∈ [0b011101#6, 0b011110#6, 0b011111#6])

/-- The instance exists (R11), written out. -/
abbrev InstPresent (cfg : Config) (inst : Inst) : Prop :=
  cfg.parPresent = true ∧
    (if cfg.haveEL3 = true ∧ cfg.el3UsingAArch32 = true then inst = .parS ∨ inst = .parNs else inst = .par)

/-- The invariant of a run: the configuration is within the bounds of R3, the context of the last step was well formed (R15), and
only an instance that exists has a write-back outstanding (R11, R67). -/
structure State.Inv (s : State) : Prop where
  paSize : 32 ≤ s.cfg.paSize ∧ s.cfg.paSize ≤ 40
  context : s.ContextOk
  outstanding : ∀ inst, s.unsynced.get inst = true → InstPresent s.cfg inst

end Sys2Proof.Machine
end

