-- ==== Sys2Proof/Certificates/Slice0/Obligations.lean ====
section
/-! DEFINITION. The statements for the provers. Each docstring names the rule of the spec it formalises. -/

open Sys2Proof Sys2Proof.Machine

/-! ## Encoding -/

/-- R96, R103: decoding the A32 word of a well-formed instruction gives the instruction back, operand for operand. -/
def Obligations.DecodeEncodeA32RoundTrip : Prop :=
  ∀ i : Instr, i.wellFormed = true → decodeA32 (encodeA32 i) = .ok i

/-- R96, R103: a word that decodes to an instruction is that instruction's own word, and the instruction is well formed. -/
def Obligations.DecodedWordIsTheInstructionsWord : Prop :=
  ∀ (w : Word) (i : Instr), decodeA32 w = .ok i → encodeA32 i = w ∧ i.wellFormed = true

/-- R97: an instruction has T32 halfwords exactly when its condition is 0b1110, and they decode to it. -/
def Obligations.DecodeEncodeT32RoundTrip : Prop :=
  ∀ i : Instr, i.wellFormed = true →
    (i.cond = 0b1110#4 → ∃ hw1 hw2, encodeT32 i = some (hw1, hw2) ∧ decodeT32 hw1 hw2 = .ok i) ∧
    (i.cond ≠ 0b1110#4 → encodeT32 i = none)

/-- R97: the T32 layout is that of R96 over hw1:hw2 with bits 31:28 fixed to 0b1110. -/
def Obligations.T32DecodesTheA32WordsOfConditionAL : Prop :=
  ∀ (hw1 hw2 : Half) (i : Instr),
    decodeT32 hw1 hw2 = .ok i ↔ decodeA32 (hw1 ++ hw2) = .ok i ∧ i.cond = 0b1110#4

/-- R96, R100: "A word w is the instruction when (w & mask) == match and w[31:28] != 0b1111", the register numbers being those of R100. -/
def Obligations.WordIsTheInstructionIffMaskMatches : Prop :=
  ∀ w : Word,
    ((∃ c t, decodeA32 w = .ok (.mrc c t)) ↔
      w &&& 0x0FFF0FFF#32 = 0x0E170F14#32 ∧ w.extractLsb' 28 4 ≠ 15#4 ∧ w.extractLsb' 12 4 ≠ 15#4) ∧
    ((∃ c t, decodeA32 w = .ok (.mcr c t)) ↔
      w &&& 0x0FFF0FFF#32 = 0x0E070F14#32 ∧ w.extractLsb' 28 4 ≠ 15#4 ∧ w.extractLsb' 12 4 ≠ 15#4) ∧
    ((∃ c t t2, decodeA32 w = .ok (.mrrc c t t2)) ↔
      w &&& 0x0FF00FFF#32 = 0x0C500F07#32 ∧ w.extractLsb' 28 4 ≠ 15#4 ∧ w.extractLsb' 12 4 ≠ 15#4 ∧
        w.extractLsb' 16 4 ≠ 15#4 ∧ w.extractLsb' 12 4 ≠ w.extractLsb' 16 4) ∧
    ((∃ c t t2, decodeA32 w = .ok (.mcrr c t t2)) ↔
      w &&& 0x0FF00FFF#32 = 0x0C400F07#32 ∧ w.extractLsb' 28 4 ≠ 15#4 ∧ w.extractLsb' 12 4 ≠ 15#4 ∧
        w.extractLsb' 16 4 ≠ 15#4)

/-- The encoding vectors W1, W5, W7, W10, W11, W12, W13, W14, W17, W19, W20, and W7 as T32 halfwords (95_test_vectors.md part 5). -/
def Obligations.PublishedEncodingVectorsDecode : Prop :=
  decodeA32 0xEE170F14#32 = .ok (.mrc 14#4 0#4) ∧ decodeA32 0xEE073F14#32 = .ok (.mcr 14#4 3#4) ∧
  decodeA32 0xEC543F07#32 = .ok (.mrrc 14#4 3#4 4#4) ∧ decodeA32 0xEC432F07#32 = .ok (.mcrr 14#4 2#4 3#4) ∧
  decodeA32 0xEC455F07#32 = .ok (.mcrr 14#4 5#4 5#4) ∧ decodeA32 0x0E171F14#32 = .ok (.mrc 0#4 1#4) ∧
  decodeA32 0x1E071F14#32 = .ok (.mcr 1#4 1#4) ∧ decodeA32 0xEE170F34#32 = .error .otherRegister ∧
  decodeA32 0xEC510F17#32 = .error .otherRegister ∧ decodeA32 0xFE170F14#32 = .error .condition ∧
  decodeA32 0xEE17FF14#32 = .error .registerNumber ∧ decodeT32 0xEC54#16 0x3F07#16 = .ok (.mrrc 14#4 3#4 4#4)

/-- R101: a SYS32 or SYS64 tuple other than those of R93 is refused by the step that meets it; it does not fault. -/
def Obligations.NeighbouringEncodingsAreRefused : Prop :=
  ∀ (s : State) (e : Entry) (rest : List Entry), s.program = e :: rest →
    (∀ x : Sys32, e.item = .tuple (.sys32 x) →
      ¬ (x.coproc = 0b1111#4 ∧ x.opc1 = 0b000#3 ∧ x.crn = 0b0111#4 ∧ x.crm = 0b0100#4 ∧ x.opc2 = 0b000#3) →
      step s = .refused (.undecodable .otherRegister)) ∧
    (∀ x : Sys64, e.item = .tuple (.sys64 x) →
      ¬ (x.coproc = 0b1111#4 ∧ x.opc1 = 0b0000#4 ∧ x.crm = 0b0111#4) →
      step s = .refused (.undecodable .otherRegister))

/-- R100: register 15, and MRRC with t = t2, are refused, by the instruction and by the decoder; MCRR with t = t2 is decoded. -/
def Obligations.InadmissibleRegistersAreRefused : Prop :=
  ∀ (s : State) (c : BitVec 4) (t t2 : RegNo), c ≠ 0b1111#4 →
    (t = 15#4 →
      exec (.mrc c t) s = .refused .registerNumber ∧ exec (.mcr c t) s = .refused .registerNumber ∧
      decodeA32 (encodeA32 (.mrc c t)) = .error .registerNumber ∧ decodeA32 (encodeA32 (.mcr c t)) = .error .registerNumber) ∧
    (t = 15#4 ∨ t2 = 15#4 ∨ t = t2 →
      exec (.mrrc c t t2) s = .refused .registerNumber ∧ decodeA32 (encodeA32 (.mrrc c t t2)) = .error .registerNumber) ∧
    (t = 15#4 ∨ t2 = 15#4 →
      exec (.mcrr c t t2) s = .refused .registerNumber ∧ decodeA32 (encodeA32 (.mcrr c t t2)) = .error .registerNumber) ∧
    (t ≠ 15#4 → decodeA32 (encodeA32 (.mcrr c t t)) = .ok (.mcrr c t t))

/-- R94, R95: the four assembler lines of PAR name the four instructions, `<c>` written as any condition but 0b1111 or left out (AL), any
qualifier, and `<opc2>` written as 0 or left out. -/
def Obligations.AssemblerLinesNameTheInstructions : Prop :=
  ∀ (oc : Option (BitVec 4)) (c : BitVec 4) (q : Option Qualifier) (t t2 : RegNo),
    (oc = some c ∧ c ≠ 0b1111#4) ∨ (oc = none ∧ c = 0b1110#4) → t ≠ 15#4 → t2 ≠ 15#4 →
    (∀ opc2, opc2 = none ∨ opc2 = some 0b000#3 →
      decodeTuple (assemble (.sys32 .read oc q 0b1111#4 0b000#3 t 0b0111#4 0b0100#4 opc2)) = .ok (.mrc c t) ∧
      decodeTuple (assemble (.sys32 .write oc q 0b1111#4 0b000#3 t 0b0111#4 0b0100#4 opc2)) = .ok (.mcr c t)) ∧
    (t ≠ t2 →
      decodeTuple (assemble (.sys64 .read oc q 0b1111#4 0b0000#4 t t2 0b0111#4)) = .ok (.mrrc c t t2)) ∧
    decodeTuple (assemble (.sys64 .write oc q 0b1111#4 0b0000#4 t t2 0b0111#4)) = .ok (.mcrr c t t2)

/-! ## The four accesses: results and completion -/

/-- R120: a ready MRC completes: R[t] receives bits 31:0 of the instance reached, and nothing else changes. -/
def Obligations.MrcReadsTheLowWord : Prop :=
  ∀ (s : State) (inst : Inst) (c : BitVec 4) (t : RegNo), t ≠ 15#4 → s.AccessReady inst →
    ∃ u, exec (.mrc c t) s = .next u ∧ u.reg t = (s.par.get inst).extractLsb' 0 32 ∧
      (∀ r, r ≠ t → u.reg r = s.reg r) ∧ u.par = s.par ∧ u.unsynced = s.unsynced ∧
      u.cfg = s.cfg ∧ u.ctx = s.ctx ∧ u.draws = s.draws ∧ u.program = s.program

/-- R121: a ready MCR completes: bits 31:0 of the instance reached receive R[t], bits 63:32 keep their value, and nothing else changes. -/
def Obligations.McrWritesTheLowWord : Prop :=
  ∀ (s : State) (inst : Inst) (c : BitVec 4) (t : RegNo), t ≠ 15#4 → s.AccessReady inst →
    ∃ u, exec (.mcr c t) s = .next u ∧
      (u.par.get inst).extractLsb' 0 32 = s.reg t ∧
      (u.par.get inst).extractLsb' 32 32 = (s.par.get inst).extractLsb' 32 32 ∧
      (∀ j, j ≠ inst → u.par.get j = s.par.get j) ∧ (∀ r, u.reg r = s.reg r) ∧ u.unsynced = s.unsynced ∧
      u.cfg = s.cfg ∧ u.ctx = s.ctx ∧ u.draws = s.draws ∧ u.program = s.program

/-- R130: a ready MRRC completes: R[t] receives bits 31:0 and R[t2] bits 63:32 of the instance reached, and nothing else changes. -/
def Obligations.MrrcReadsBothWords : Prop :=
  ∀ (s : State) (inst : Inst) (c : BitVec 4) (t t2 : RegNo), t ≠ 15#4 → t2 ≠ 15#4 → t ≠ t2 → s.AccessReady inst →
    ∃ u, exec (.mrrc c t t2) s = .next u ∧
      u.reg t = (s.par.get inst).extractLsb' 0 32 ∧ u.reg t2 = (s.par.get inst).extractLsb' 32 32 ∧
      (∀ r, r ≠ t → r ≠ t2 → u.reg r = s.reg r) ∧ u.par = s.par ∧ u.unsynced = s.unsynced ∧
      u.cfg = s.cfg ∧ u.ctx = s.ctx ∧ u.draws = s.draws ∧ u.program = s.program

/-- R131: a ready MCRR completes: the instance reached receives R[t2]:R[t], t = t2 allowed, and nothing else changes. -/
def Obligations.McrrWritesBothWords : Prop :=
  ∀ (s : State) (inst : Inst) (c : BitVec 4) (t t2 : RegNo), t ≠ 15#4 → t2 ≠ 15#4 → s.AccessReady inst →
    ∃ u, exec (.mcrr c t t2) s = .next u ∧ u.par.get inst = s.reg t2 ++ s.reg t ∧
      (∀ j, j ≠ inst → u.par.get j = s.par.get j) ∧ (∀ r, u.reg r = s.reg r) ∧ u.unsynced = s.unsynced ∧
      u.cfg = s.cfg ∧ u.ctx = s.ctx ∧ u.draws = s.draws ∧ u.program = s.program

/-- R120, R121, R130, R131: in every well-formed context (R15) each access is what its rule writes in the spec's own notation: the source's
pseudocode branch for branch, traps included. The register refusals are log entry 11 (the spec's decision D9), the failed-condition clauses
log entry 9 (D10), the premise on `unsynced` log entry 10 (D16). -/
def Obligations.AccessesAreTheSourcePseudocode : Prop :=
  ∀ (s : State) (c : BitVec 4) (t t2 : RegNo), s.ContextOk →
    exec (.mrc c t) s =
      (if t = 15#4 then .refused .registerNumber
       else ruleAccess s 0x03 fun inst => s.setReg t ((s.par.get inst).extractLsb' 0 32)) ∧
    exec (.mcr c t) s =
      (if t = 15#4 then .refused .registerNumber
       else ruleAccess s 0x03 fun inst => s.setPAR inst ((s.par.get inst).extractLsb' 32 32 ++ s.reg t)) ∧
    exec (.mrrc c t t2) s =
      (if t = 15#4 ∨ t2 = 15#4 ∨ t = t2 then .refused .registerNumber
       else ruleAccess s 0x04 fun inst =>
        (s.setReg t ((s.par.get inst).extractLsb' 0 32)).setReg t2 ((s.par.get inst).extractLsb' 32 32)) ∧
    exec (.mcrr c t t2) s =
      (if t = 15#4 ∨ t2 = 15#4 then .refused .registerNumber
       else ruleAccess s 0x04 fun inst => s.setPAR inst (s.reg t2 ++ s.reg t))

/-- R18, R147: with a failed condition an access that would proceed has no effect at all, whatever is outstanding, and one that would be
UNDEFINED or trapped is refused. -/
def Obligations.FailedConditionHasNoEffectOrIsRefused : Prop :=
  ∀ (i : Instr) (s : State), i.wellFormed = true → s.ContextOk → s.ctx.condPassed = false →
    (s.AccessProceeds → exec i s = .next s) ∧
    (s.AccessUndefined ∨ s.AccessTrapsToA64 ∨ s.AccessTrapsToHyp → exec i s = .refused .failedConditionOnFault)

/-! ## Exceptional outcomes -/

/-- R141: an access is Undefined for exactly two causes, the register absent or the access made at EL0; no register number makes it so. -/
def Obligations.UndefinedForExactlyTwoCauses : Prop :=
  ∀ (i : Instr) (s : State),
    (exec i s = .fault .undefined → s.cfg.parPresent = false ∨ s.ctx.el = .el0) ∧
    (i.wellFormed = true → s.ContextOk → s.ctx.condPassed = true →
      s.cfg.parPresent = false ∨ s.ctx.el = .el0 → exec i s = .fault .undefined)

/-- R142: an access traps to an AArch64 EL2 only at EL1 with EL2 enabled and using AArch64 and HSTR_EL2.T7 set, its target always EL2 and
its code 0x03 for MRC and MCR and 0x04 for MRRC and MCRR; and there it does trap. -/
def Obligations.TrapsToAArch64EL2ExactlyUnderT7 : Prop :=
  ∀ (i : Instr) (s : State),
    (∀ (target : EL) (code : Nat), exec i s = .fault (.a64SysTrap target code) →
      target = .el2 ∧ code = accessCode i ∧ s.ctx.el = .el1 ∧ s.ctx.el2Enabled = true ∧
        s.ctx.el2UsingAArch32 = false ∧ s.ctx.hstrEl2T7 = 1#1) ∧
    (i.wellFormed = true → s.ContextOk → s.ctx.condPassed = true → s.AccessTrapsToA64 →
      exec i s = .fault (.a64SysTrap .el2 (accessCode i)))

/-- R143: an access takes the Hyp trap only at EL1 with EL2 enabled and using AArch32 and HSTR.T7 set, its code 0x03 for MRC and MCR and
0x04 for MRRC and MCRR; and there it does. -/
def Obligations.TakesHypTrapExactlyUnderT7 : Prop :=
  ∀ (i : Instr) (s : State),
    (∀ code : Nat, exec i s = .fault (.hypTrap code) →
      code = accessCode i ∧ s.ctx.el = .el1 ∧ s.ctx.el2Enabled = true ∧
        s.ctx.el2UsingAArch32 = true ∧ s.ctx.hstrT7 = 1#1) ∧
    (i.wellFormed = true → s.ContextOk → s.ctx.condPassed = true → s.AccessTrapsToHyp →
      exec i s = .fault (.hypTrap (accessCode i)))

/-- R141 to R143, R146: where an access faults it does so for one of the three reasons, with its own code. That its condition had passed is the
model's refusal of the other case (log entry 9, the spec's decision D10), which R147 leaves open for hardware. -/
def Obligations.FaultsHaveOneOfThreeReasons : Prop :=
  ∀ (i : Instr) (s : State) (f : Fault), exec i s = .fault f →
    s.ctx.condPassed = true ∧
    ((f = .undefined ∧ s.AccessUndefined) ∨ (f = .a64SysTrap .el2 (accessCode i) ∧ s.AccessTrapsToA64) ∨
      (f = .hypTrap (accessCode i) ∧ s.AccessTrapsToHyp))

/-- R141, R146: no access completes at EL0. With its condition passed it is UNDEFINED; that it does not complete with a failed condition either
is the model's refusal (log entry 9, the spec's decision D10), which R147 leaves open for hardware. -/
def Obligations.NoAccessCompletesAtEL0 : Prop :=
  ∀ (i : Instr) (s t : State), s.ctx.el = .el0 → exec i s ≠ .next t

/-- R146, R160: at EL2 and EL3 neither T7 bit is read, and an access to a present register never faults there. -/
def Obligations.AccessesAtEL2AndEL3AreNeverTrapped : Prop :=
  ∀ (i : Instr) (s : State) (a b : BitVec 1), s.ctx.el = .el2 ∨ s.ctx.el = .el3 → s.cfg.parPresent = true →
    (∀ f, exec i s ≠ .fault f) ∧
    mapNext (fun t => { t with ctx := s.ctx }) (exec i { s with ctx := { s.ctx with hstrT7 := a, hstrEl2T7 := b } }) = exec i s

/-- R176: a direct access to an instance with an outstanding write-back is refused while SyncRequired holds. -/
def Obligations.UnsynchronisedAccessIsRefused : Prop :=
  ∀ (i : Instr) (s : State) (inst : Inst), i.wellFormed = true → s.ContextOk → s.AccessProceeds → s.ctx.condPassed = true →
    s.Reaches inst → s.cfg.syncRequired = true → s.unsynced.get inst = true → exec i s = .refused (.unsynchronised inst)

/-- R15: a context that breaks W1, W2 or W3 is refused, by every instruction and by both events. The model's deductions: the refusal comes
before every test of R146, so also where PAR is absent or at EL0 (log entry 7), and the premises bind the two events too (log entry 23). -/
def Obligations.IllFormedContextIsRefused : Prop :=
  ∀ (s : State), ¬ s.ContextOk →
    ∃ r, r ∈ [Refusal.contextW1, Refusal.contextW2, Refusal.contextW3] ∧
      (∀ i : Instr, i.wellFormed = true → exec i s = .refused r) ∧
      (∀ inst res, execATResult inst res s = .refused r) ∧ execContextSync s = .refused r

/-! ## Frames -/

/-- R120, R130: where MRC or MRRC gives a next state, only its destination registers may differ; PAR is unchanged. -/
def Obligations.ReadsChangeOnlyTheirDestinations : Prop :=
  ∀ (s u : State) (c : BitVec 4) (t t2 : RegNo),
    (exec (.mrc c t) s = .next u →
      (∀ r, r ≠ t → u.reg r = s.reg r) ∧ u.par = s.par ∧ u.unsynced = s.unsynced ∧
      u.cfg = s.cfg ∧ u.ctx = s.ctx ∧ u.draws = s.draws ∧ u.program = s.program) ∧
    (exec (.mrrc c t t2) s = .next u →
      (∀ r, r ≠ t → r ≠ t2 → u.reg r = s.reg r) ∧ u.par = s.par ∧ u.unsynced = s.unsynced ∧
      u.cfg = s.cfg ∧ u.ctx = s.ctx ∧ u.draws = s.draws ∧ u.program = s.program)

/-- R121, R131: where MCR or MCRR gives a next state, only the instance the access reaches may differ. -/
def Obligations.WritesChangeOnlyTheInstanceReached : Prop :=
  ∀ (s u : State) (c : BitVec 4) (t t2 : RegNo), exec (.mcr c t) s = .next u ∨ exec (.mcrr c t t2) s = .next u →
    (∀ j, ¬ s.Reaches j → u.par.get j = s.par.get j) ∧ (∀ r, u.reg r = s.reg r) ∧ u.unsynced = s.unsynced ∧
    u.cfg = s.cfg ∧ u.ctx = s.ctx ∧ u.draws = s.draws ∧ u.program = s.program

/-- R13: a 32-bit access reads and writes bits 31:0 and does not modify bits 63:32, of any instance, in any format. -/
def Obligations.ThirtyTwoBitAccessesKeepTheUpperWord : Prop :=
  ∀ (s u : State) (c : BitVec 4) (t : RegNo) (inst : Inst),
    (exec (.mrc c t) s = .next u →
      u.par = s.par ∧ (s.ctx.condPassed = true → s.Reaches inst → u.reg t = (s.par.get inst).extractLsb' 0 32)) ∧
    (exec (.mcr c t) s = .next u →
      (u.par.get inst).extractLsb' 32 32 = (s.par.get inst).extractLsb' 32 32 ∧
      (s.ctx.condPassed = true → s.Reaches inst → (u.par.get inst).extractLsb' 0 32 = s.reg t))

/-! ## Banking and isolation -/

/-- R12, R160: every access that proceeds in a well-formed context reaches exactly one instance, and that instance exists (R11). -/
def Obligations.ProceedingAccessReachesOneExistingInstance : Prop :=
  ∀ s : State, s.ContextOk → s.AccessProceeds →
    ∃ inst, s.Reaches inst ∧ InstPresent s.cfg inst ∧ ∀ j, s.Reaches j → j = inst

/-- R161: below EL3 no instruction changes PAR_S. The write-back event is no instruction here and may write it from any level (R115, log entry 17). -/
def Obligations.NoInstructionBelowEL3ChangesTheSecureInstance : Prop :=
  ∀ (i : Instr) (s t : State), s.ctx.el ≠ .el3 → exec i s = .next t → t.par.get .parS = s.par.get .parS

/-- R161: PAR_S is unreachable from EL0, EL1 and EL2: an instruction there gives the same outcome whatever PAR_S holds, and carries it along unread. -/
def Obligations.SecureInstanceIsInvisibleBelowEL3 : Prop :=
  ∀ (i : Instr) (s : State) (v : DWord), s.ctx.el ≠ .el3 →
    exec i (s.setPAR .parS v) = mapNext (fun t => t.setPAR .parS v) (exec i s)

/-- R20, and for the general registers R8 and R16: a step keeps two states equal up to stored values. If they differ only in the content of
PAR and of the general registers, the same step completes in both or stops in both for the same reason, and they then differ only there. -/
def Obligations.StoredValuesDoNotAffectTheMachine : Prop :=
  ∀ s s' : State, s.eraseValues = s'.eraseValues → mapNext State.eraseValues (step s) = mapNext State.eraseValues (step s')

/-- R20, R110, R83: neither event reads the content of PAR or a general register: changing them beforehand changes the outcome by nothing
but the values carried along, the instance a write-back writes excepted, which receives the same value. -/
def Obligations.EventsReadNoStoredValue : Prop :=
  ∀ (s : State) (p : Banks DWord) (g : Vector Word 16),
    (∀ inst res, execATResult inst res { s with par := p, regs := g } =
      mapNext (fun t => { t with par := p.set inst (t.par.get inst), regs := g }) (execATResult inst res s)) ∧
    execContextSync { s with par := p, regs := g } = mapNext (fun t => { t with par := p, regs := g }) (execContextSync s)

/-- R11, R110: in every step, an instance that does not exist keeps its value, and its flag is not set. That such an instance has a place in
State at all is the model's choice (log entry 25). -/
def Obligations.AbsentInstancesNeverChange : Prop :=
  ∀ (s t : State) (inst : Inst), step s = .next t → ¬ InstPresent s.cfg inst →
    t.par.get inst = s.par.get inst ∧ (t.unsynced.get inst = true → s.unsynced.get inst = true)

/-! ## Sequences of direct accesses -/

/-- R175: MCRR then MRRC returns the two words written, and MRC then sees the low one (R74), with nothing required in between. -/
def Obligations.WrittenWordsReadBack : Prop :=
  ∀ (s : State) (inst : Inst) (c c2 : BitVec 4) (t t2 a b : RegNo), s.AccessReady inst →
    t ≠ 15#4 → t2 ≠ 15#4 → a ≠ 15#4 → b ≠ 15#4 → a ≠ b →
    ∃ u v w, exec (.mcrr c t t2) s = .next u ∧ exec (.mrrc c2 a b) u = .next v ∧ exec (.mrc c2 a) u = .next w ∧
      v.reg a = s.reg t ∧ v.reg b = s.reg t2 ∧ w.reg a = s.reg t

/-- R175, R74: MCR then MRRC returns the new low word and the old high word. -/
def Obligations.LowWordWriteThenWideRead : Prop :=
  ∀ (s : State) (inst : Inst) (c c2 : BitVec 4) (t a b : RegNo), s.AccessReady inst →
    t ≠ 15#4 → a ≠ 15#4 → b ≠ 15#4 → a ≠ b →
    ∃ u v, exec (.mcr c t) s = .next u ∧ exec (.mrrc c2 a b) u = .next v ∧
      v.reg a = s.reg t ∧ v.reg b = (s.par.get inst).extractLsb' 32 32

/-- R79: two reads with no write between return the same value and leave PAR as it was, and writing the same value twice equals writing it
once. -/
def Obligations.ReadsRepeatAndWritesAreIdempotent : Prop :=
  ∀ (s : State) (inst : Inst) (c : BitVec 4) (t t2 a b : RegNo), s.AccessReady inst →
    t ≠ 15#4 → t2 ≠ 15#4 → a ≠ 15#4 → b ≠ 15#4 →
    (∃ u v, exec (.mrc c t) s = .next u ∧ exec (.mrc c a) u = .next v ∧ v.reg a = u.reg t ∧ v.par = s.par) ∧
    (t ≠ t2 → a ≠ b →
      ∃ u v, exec (.mrrc c t t2) s = .next u ∧ exec (.mrrc c a b) u = .next v ∧ v.reg a = u.reg t ∧ v.reg b = u.reg t2 ∧
        v.par = s.par) ∧
    (∃ u, exec (.mcr c t) s = .next u ∧ exec (.mcr c t) u = .next u) ∧
    (∃ u, exec (.mcrr c t t2) s = .next u ∧ exec (.mcrr c t t2) u = .next u)

/-- R14: where the register is present and not banked, the AArch64 view is the same 64 bits, before and after a MCRR. -/
def Obligations.AArch64ViewIsTheSameStorage : Prop :=
  ∀ (s : State) (c : BitVec 4) (t t2 : RegNo), s.AccessReady .par → t ≠ 15#4 → t2 ≠ 15#4 →
    s.parEl1 = some (s.par.get .par) ∧
    ∃ u, exec (.mcrr c t t2) s = .next u ∧ u.parEl1 = some (s.reg t2 ++ s.reg t)

/-! ## The write-back of a translation result -/

/-- R110, R117: the write-back event completes exactly when its context is well formed, its instance exists and its result is one of the values
the page permits. That the event needs a well-formed context is the model's deduction from R15 (log entry 23); that other results are refused
is the spec's decisions D21 and D22 (log entry 18). -/
def Obligations.WriteBackCompletesExactlyOnPermittedResults : Prop :=
  ∀ (s : State) (inst : Inst) (res : ATResult),
    (∃ t, execATResult inst res s = .next t) ↔ s.ContextOk ∧ InstPresent s.cfg inst ∧ PermittedResult s.cfg res

/-- R110: the write-back changes one instance and its synchronisation flag; no general register and no other instance. -/
def Obligations.WriteBackChangesOneInstance : Prop :=
  ∀ (s t : State) (inst : Inst) (res : ATResult), execATResult inst res s = .next t →
    t.unsynced.get inst = true ∧ (∀ r, t.reg r = s.reg r) ∧
    (∀ j, j ≠ inst → t.par.get j = s.par.get j ∧ t.unsynced.get j = s.unsynced.get j) ∧
    t.cfg = s.cfg ∧ t.ctx = s.ctx ∧ t.program = s.program

/-- R111: the bits of `Value(S32 r)`, those R111 draws excepted, within the bound of R3 that the invariant keeps. -/
def Obligations.S32ValueBits : Prop :=
  ∀ (s t : State) (inst : Inst) (r : S32Result), 32 ≤ s.cfg.paSize → execATResult inst (.s32 r) s = .next t →
    ∃ v, t.par.get inst = v ∧
      (r.ss = 0#1 → v.extractLsb' 12 20 = r.oa.extractLsb' 12 20) ∧
      (r.ss = 1#1 → v.extractLsb' 24 8 = r.oa.extractLsb' 24 8 ∧ v.extractLsb' 12 4 = 0#4 ∧
        ∀ k, k < 8 → 32 + k < s.cfg.paSize → v.getLsbD (16 + k) = r.oa.getLsbD (32 + k)) ∧
      v.extractLsb' 11 1 = 0#1 ∧ (r.sh = 1#1 → v.extractLsb' 10 1 = r.nos) ∧
      (r.secureRegime = true → v.extractLsb' 9 1 = r.ns) ∧ v.extractLsb' 7 1 = r.sh ∧ v.extractLsb' 4 3 = r.inner ∧
      v.extractLsb' 2 2 = r.outer ∧ v.extractLsb' 1 1 = r.ss ∧ v.extractLsb' 0 1 = 0#1

/-- R112: the bits of `Value(F32 r)`, the draw and the IMPLEMENTATION DEFINED field excepted. -/
def Obligations.F32ValueBits : Prop :=
  ∀ (s t : State) (inst : Inst) (r : F32Result), execATResult inst (.f32 r) s = .next t →
    ∃ v, t.par.get inst = v ∧ v.extractLsb' 12 4 = 0#4 ∧ v.extractLsb' 11 1 = 0#1 ∧ v.extractLsb' 7 4 = 0#4 ∧
      v.extractLsb' 6 1 = r.fs5 ∧ v.extractLsb' 1 5 = r.fs ∧ v.extractLsb' 0 1 = 1#1

/-- R113: the bits of `Value(S64 r)`, NS of a Non-secure regime and the IMPLEMENTATION DEFINED bit excepted. -/
def Obligations.S64ValueBits : Prop :=
  ∀ (s t : State) (inst : Inst) (r : S64Result), execATResult inst (.s64 r) s = .next t →
    ∃ v, t.par.get inst = v ∧ v.extractLsb' 56 8 = r.attr ∧ v.extractLsb' 40 16 = 0#16 ∧
      v.extractLsb' 12 28 = r.oa.extractLsb' 12 28 ∧ v.extractLsb' 11 1 = 1#1 ∧
      (r.secureRegime = true → v.extractLsb' 9 1 = r.ns) ∧ v.extractLsb' 7 2 = r.sh ∧ v.extractLsb' 1 6 = 0#6 ∧
      v.extractLsb' 0 1 = 0#1

/-- R114: the bits of `Value(F64 r)`, the IMPLEMENTATION DEFINED fields excepted. -/
def Obligations.F64ValueBits : Prop :=
  ∀ (s t : State) (inst : Inst) (r : F64Result), execATResult inst (.f64 r) s = .next t →
    ∃ v, t.par.get inst = v ∧ v.extractLsb' 12 36 = 0#36 ∧ v.extractLsb' 11 1 = 1#1 ∧ v.extractLsb' 10 1 = 0#1 ∧
      v.extractLsb' 9 1 = r.fstage ∧ v.extractLsb' 8 1 = r.s2wlk ∧ v.extractLsb' 7 1 = 0#1 ∧ v.extractLsb' 1 6 = r.fst ∧
      v.extractLsb' 0 1 = 1#1

/-- R118, R19: software that reads back what a write-back stored tells the format by LPAE and F and recovers every meaningful field, within the bound of
R3 that the invariant keeps. -/
def Obligations.SoftwareRecoversTheResult : Prop :=
  ∀ (s t : State) (inst : Inst) (res : ATResult), 32 ≤ s.cfg.paSize → execATResult inst res s = .next t →
    ReadsBackAs s.cfg.paSize res (parView (t.par.get inst))

/-- R19, R118: the low word of a value suffices to tell its format. -/
def Obligations.LowWordTellsTheFormat : Prop :=
  ∀ v w : DWord, v.extractLsb' 0 32 = w.extractLsb' 0 32 → formatOf v = formatOf w

/-- R83: a Context synchronization event clears the flag of every instance, and that is its whole effect. -/
def Obligations.ContextSyncClearsEveryFlag : Prop :=
  ∀ s : State, s.ContextOk →
    ∃ t, execContextSync s = .next t ∧ (∀ inst, t.unsynced.get inst = false) ∧ t.par = s.par ∧ (∀ r, t.reg r = s.reg r) ∧
      t.cfg = s.cfg ∧ t.ctx = s.ctx ∧ t.draws = s.draws ∧ t.program = s.program

/-- R176 (the spec's decision D16, log entry 10): after a write-back every access to its instance is refused while SyncRequired holds and at
once possible otherwise; after a ContextSync it completes either way. Where it completes it acts on the value written. -/
def Obligations.WriteBackNeedsContextSyncBeforeAccess : Prop :=
  ∀ (s : State) (inst : Inst) (res : ATResult) (i : Instr), i.wellFormed = true →
    s.AccessReady inst → PermittedResult s.cfg res →
    ∃ u v w, execATResult inst res s = .next u ∧ execContextSync u = .next v ∧ exec i v = .next w ∧ AccessDid i inst u w ∧
      (s.cfg.syncRequired = true → exec i u = .refused (.unsynchronised inst)) ∧
      (s.cfg.syncRequired = false → ∃ x, exec i u = .next x ∧ AccessDid i inst u x)

/-- R40, R62: the meaning of every code of the fault status tables, row by row, three rows of each only without FEAT_RAS; every other code has
no meaning, and no code has two rows. -/
def Obligations.FaultStatusTablesAreComplete : Prop :=
  (∀ ras : Bool,
    fsStatus ras 0b00001#5 = some .alignment ∧ fsStatus ras 0b00011#5 = some (.accessFlag 1) ∧
    fsStatus ras 0b00100#5 = some .instructionCacheMaintenance ∧ fsStatus ras 0b00101#5 = some (.translation 1) ∧
    fsStatus ras 0b00110#5 = some (.accessFlag 2) ∧ fsStatus ras 0b00111#5 = some (.translation 2) ∧
    fsStatus ras 0b01001#5 = some (.domain 1) ∧ fsStatus ras 0b01011#5 = some (.domain 2) ∧
    fsStatus ras 0b01100#5 = some (.externalAbortOnWalk 1) ∧ fsStatus ras 0b01101#5 = some (.permission 1) ∧
    fsStatus ras 0b01110#5 = some (.externalAbortOnWalk 2) ∧ fsStatus ras 0b01111#5 = some (.permission 2) ∧
    fsStatus ras 0b10000#5 = some .tlbConflict ∧
    (∀ code, code ∉
      [0b00001#5, 0b00011#5, 0b00100#5, 0b00101#5, 0b00110#5, 0b00111#5, 0b01001#5, 0b01011#5, 0b01100#5, 0b01101#5,
        0b01110#5, 0b01111#5, 0b10000#5, 0b11001#5, 0b11100#5, 0b11110#5] →
      fsStatus ras code = none)) ∧
  fsStatus false 0b11001#5 = some .parityOnAccess ∧ fsStatus true 0b11001#5 = none ∧
  fsStatus false 0b11100#5 = some (.parityOnWalk 1) ∧ fsStatus true 0b11100#5 = none ∧
  fsStatus false 0b11110#5 = some (.parityOnWalk 2) ∧ fsStatus true 0b11110#5 = none ∧
  (∀ ras : Bool,
    fstStatus ras 0b000000#6 = some .addressSizeInBaseRegister ∧ fstStatus ras 0b000001#6 = some (.addressSize 1) ∧
    fstStatus ras 0b000010#6 = some (.addressSize 2) ∧ fstStatus ras 0b000011#6 = some (.addressSize 3) ∧
    fstStatus ras 0b000101#6 = some (.translation 1) ∧ fstStatus ras 0b000110#6 = some (.translation 2) ∧
    fstStatus ras 0b000111#6 = some (.translation 3) ∧ fstStatus ras 0b001001#6 = some (.accessFlag 1) ∧
    fstStatus ras 0b001010#6 = some (.accessFlag 2) ∧ fstStatus ras 0b001011#6 = some (.accessFlag 3) ∧
    fstStatus ras 0b001101#6 = some (.permission 1) ∧ fstStatus ras 0b001110#6 = some (.permission 2) ∧
    fstStatus ras 0b001111#6 = some (.permission 3) ∧ fstStatus ras 0b010101#6 = some (.externalAbortOnWalk 1) ∧
    fstStatus ras 0b010110#6 = some (.externalAbortOnWalk 2) ∧ fstStatus ras 0b010111#6 = some (.externalAbortOnWalk 3) ∧
    fstStatus ras 0b110000#6 = some .tlbConflict ∧
    (∀ code, code ∉
      [0b000000#6, 0b000001#6, 0b000010#6, 0b000011#6, 0b000101#6, 0b000110#6, 0b000111#6, 0b001001#6, 0b001010#6, 0b001011#6,
        0b001101#6, 0b001110#6, 0b001111#6, 0b010101#6, 0b010110#6, 0b010111#6, 0b011101#6, 0b011110#6, 0b011111#6,
        0b110000#6] →
      fstStatus ras code = none)) ∧
  fstStatus false 0b011101#6 = some (.parityOnWalk 1) ∧ fstStatus true 0b011101#6 = none ∧
  fstStatus false 0b011110#6 = some (.parityOnWalk 2) ∧ fstStatus true 0b011110#6 = none ∧
  fstStatus false 0b011111#6 = some (.parityOnWalk 3) ∧ fstStatus true 0b011111#6 = none ∧
  (fsTable.map StatusRow.code).Nodup ∧ (fstTable.map StatusRow.code).Nodup

/-- R25, R28, R29, R30, R49, R59, R60: the meaning of every value of the attribute and stage fields; a reserved value has none. -/
def Obligations.AttributeTablesAreComplete : Prop :=
  (∀ nos, shareabilityS32 0#1 nos = .nonShareable) ∧ shareabilityS32 1#1 0#1 = .outerShareable ∧
  shareabilityS32 1#1 1#1 = .innerShareable ∧
  innerAttr 0b000#3 = some .nonCacheable ∧ innerAttr 0b001#3 = some .deviceNGnRnE ∧ innerAttr 0b010#3 = none ∧
  innerAttr 0b011#3 = some .deviceNGnRE ∧ innerAttr 0b100#3 = none ∧ innerAttr 0b101#3 = some .writeBackWriteAllocate ∧
  innerAttr 0b110#3 = some .writeThrough ∧ innerAttr 0b111#3 = some .writeBackNoWriteAllocate ∧
  outerAttr 0b00#2 = .nonCacheable ∧ outerAttr 0b01#2 = .writeBackWriteAllocate ∧
  outerAttr 0b10#2 = .writeThroughNoWriteAllocate ∧ outerAttr 0b11#2 = .writeBackNoWriteAllocate ∧
  shareabilityS64 0b00#2 = some .nonShareable ∧ shareabilityS64 0b01#2 = none ∧
  shareabilityS64 0b10#2 = some .outerShareable ∧ shareabilityS64 0b11#2 = some .innerShareable ∧
  faultStage 0#1 = .stage1 ∧ faultStage 1#1 = .stage2 ∧
  stage2DuringStage1Walk 0#1 = false ∧ stage2DuringStage1Walk 1#1 = true

/-! ## The machine -/

/-- R17, R103: when the step at the head of the program decodes to an instruction, step is exec of it, under the context supplied with
it and with the head removed. -/
def Obligations.StepRunsTheDecodedInstruction : Prop :=
  ∀ (s : State) (e : Entry) (rest : List Entry) (i : Instr), s.program = e :: rest →
    (∃ w, e.item = .a32 w ∧ decodeA32 w = .ok i) ∨ (∃ hw1 hw2, e.item = .t32 hw1 hw2 ∧ decodeT32 hw1 hw2 = .ok i) ∨
      (∃ x, e.item = .tuple x ∧ decodeTuple x = .ok i) →
    step s = exec i { s with ctx := e.ctx, program := rest }

/-- R17, R87: an event at the head of the program is run under its own context, with the head removed. -/
def Obligations.StepRunsTheEvents : Prop :=
  ∀ (s : State) (e : Entry) (rest : List Entry), s.program = e :: rest →
    (∀ inst res, e.item = .atResult inst res →
      step s = execATResult inst res { s with ctx := e.ctx, program := rest }) ∧
    (e.item = .contextSync → step s = execContextSync { s with ctx := e.ctx, program := rest })

/-- R17, R103 and log entry 20: a step with nothing left to run, and a step whose word does not decode, are refused by name. -/
def Obligations.StepRefusesWhatItCannotRun : Prop :=
  ∀ s : State,
    (s.program = [] → step s = .refused .endOfProgram) ∧
    (∀ (e : Entry) (rest : List Entry) (w : Word) (why : DecodeError), s.program = e :: rest → e.item = .a32 w →
      decodeA32 w = .error why → step s = .refused (.undecodable why))

/-- Every step keeps the invariant: the bounds of R3, the premises of R15, and that only an existing instance has a write-back outstanding. -/
def Obligations.StepKeepsTheInvariant : Prop :=
  ∀ s t : State, s.Inv → step s = .next t → t.Inv

/-- The reset state meets the invariant. -/
def Obligations.ResetMeetsTheInvariant : Prop := State.reset.Inv

/-- R173, R17: every step keeps the configuration, moves to the next list element, and runs under that element's context. -/
def Obligations.StepKeepsConfigurationAndMovesOn : Prop :=
  ∀ s t : State, step s = .next t → t.cfg = s.cfg ∧ ∃ e, s.program = e :: t.program ∧ t.ctx = e.ctx

/-- R16, R100: no step writes general register 15. -/
def Obligations.RegisterFifteenIsNeverWritten : Prop :=
  ∀ s t : State, step s = .next t → t.reg 15#4 = s.reg 15#4

/-- R67: `unsynced` is set by the write-back and cleared by the Context synchronization event, and changed by no instruction. -/
def Obligations.OnlyEventsChangeSynchronisation : Prop :=
  ∀ s t : State, step s = .next t → t.unsynced ≠ s.unsynced →
    ∃ e rest, s.program = e :: rest ∧
      ((∃ inst res, e.item = .atResult inst res ∧ t.unsynced.get inst = true ∧
          ∀ j, j ≠ inst → t.unsynced.get j = s.unsynced.get j) ∨
        (e.item = .contextSync ∧ ∀ inst, t.unsynced.get inst = false))

/-- R170: at reset no write-back is outstanding, and each instance holds a draw of its own. -/
def Obligations.ResetLeavesDrawsAndNothingOutstanding : Prop :=
  (∀ inst, State.reset.unsynced.get inst = false) ∧
  State.reset.par.get .par = Config.draw 64 0 ∧ State.reset.par.get .parS = Config.draw 64 1 ∧
  State.reset.par.get .parNs = Config.draw 64 2
end

