-- ==== Sys2Proof/Laws/Decode.lean ====
section
/-! SUPPORT. The word layouts of R96 read back: the tuple of a tuple's word is that tuple, and what decoding can answer. -/

namespace Sys2Proof

/-- Every field of a SYS32 word reads back (R96). -/
theorem tupleOfA32_wordOfSys32 (x : Sys32) : tupleOfA32 (wordOfSys32 x) = .sys32 x := by
  obtain ⟨d, c, co, o1, n, m, o2, t⟩ := x
  cases d <;>
    simp [-Nat.reduceAdd, tupleOfA32, wordOfSys32, bitOfDir, dirOfBit, BitVec.extractLsb'_append_eq_ite]

/-- Every field of a SYS64 word reads back (R96). -/
theorem tupleOfA32_wordOfSys64 (x : Sys64) : tupleOfA32 (wordOfSys64 x) = .sys64 x := by
  obtain ⟨d, c, co, o1, m, t, t2⟩ := x
  cases d <;>
    simp [-Nat.reduceAdd, tupleOfA32, wordOfSys64, bitOfDir, dirOfBit, BitVec.extractLsb'_append_eq_ite]

/-- Two adjacent slices join to one slice. -/
theorem extractLsb'_join {n : Nat} (w : BitVec n) (s a b s' : Nat) (h : s' = s + b) :
    w.extractLsb' s' a ++ w.extractLsb' s b = w.extractLsb' s (a + b) := by
  subst h
  ext i hi
  simp [BitVec.getElem_append]
  intro h
  congr 1
  omega

/-- The direction bit reads back. -/
theorem bitOfDir_dirOfBit (b : BitVec 1) : bitOfDir (dirOfBit b) = b := by
  revert b
  decide

/-- A word with a SYS32 tuple is that tuple's word: no bit of it is dropped. -/
theorem wordOfSys32_of_tuple {w : Word} {x : Sys32} (h : tupleOfA32 w = .sys32 x) : wordOfSys32 x = w := by
  unfold tupleOfA32 at h
  split at h
  next hh =>
    cases h
    unfold wordOfSys32
    simp only [bitOfDir_dirOfBit]
    rw [← hh.1, ← hh.2, extractLsb'_join w 24 4 4 28 rfl, extractLsb'_join w 21 8 3 24 rfl,
      extractLsb'_join w 20 11 1 21 rfl, extractLsb'_join w 16 12 4 20 rfl, extractLsb'_join w 12 16 4 16 rfl,
      extractLsb'_join w 8 20 4 12 rfl, extractLsb'_join w 5 24 3 8 rfl, extractLsb'_join w 4 27 1 5 rfl,
      extractLsb'_join w 0 28 4 4 rfl]
    exact BitVec.extractLsb'_eq_self
  · split at h <;> cases h

/-- A word with a SYS64 tuple is that tuple's word: no bit of it is dropped. -/
theorem wordOfSys64_of_tuple {w : Word} {x : Sys64} (h : tupleOfA32 w = .sys64 x) : wordOfSys64 x = w := by
  unfold tupleOfA32 at h
  split at h
  · cases h
  · split at h
    next hh =>
      cases h
      unfold wordOfSys64
      simp only [bitOfDir_dirOfBit]
      rw [← hh, extractLsb'_join w 21 4 7 28 rfl, extractLsb'_join w 20 11 1 21 rfl,
        extractLsb'_join w 16 12 4 20 rfl, extractLsb'_join w 12 16 4 16 rfl, extractLsb'_join w 8 20 4 12 rfl,
        extractLsb'_join w 4 24 4 8 rfl, extractLsb'_join w 0 28 4 4 rfl]
      exact BitVec.extractLsb'_eq_self
    · cases h

/-- What `admitInstr` lets through is the instruction itself, well formed. -/
theorem admit_ok {i j : Instr} (h : admitInstr i = .ok j) : j = i ∧ i.wellFormed = true := by
  unfold admitInstr at h
  split at h
  · split at h
    next hw => cases h; exact ⟨rfl, hw⟩
    · cases h
  · cases h

/-- A well-formed instruction has a condition field other than 0b1111. -/
theorem condOk_of_wellFormed {i : Instr} (h : i.wellFormed = true) : condOk i.cond = true := by
  cases i <;> simp_all [Instr.wellFormed, Instr.cond]

/-- `admitInstr` lets every well-formed instruction through. -/
theorem admitInstr_of_wellFormed {i : Instr} (h : i.wellFormed = true) : admitInstr i = .ok i := by
  simp [admitInstr, condOk_of_wellFormed h, h]

/-- What the decode procedure can answer with an instruction (R103): a tuple with PAR's field values. -/
theorem decodeTuple_ok {t : Tuple} {i : Instr} (h : decodeTuple t = .ok i) :
    i.wellFormed = true ∧
      ((∃ x, t = .sys32 x ∧ x.namesPAR = true ∧ i = x.instr) ∨ (∃ x, t = .sys64 x ∧ x.namesPAR = true ∧ i = x.instr)) := by
  cases t with
  | sys32 x =>
    simp only [decodeTuple] at h
    split at h
    next hx => exact ⟨(admit_ok h).1 ▸ (admit_ok h).2, .inl ⟨x, rfl, hx, (admit_ok h).1⟩⟩
    · cases h
  | sys64 x =>
    simp only [decodeTuple] at h
    split at h
    next hx => exact ⟨(admit_ok h).1 ▸ (admit_ok h).2, .inr ⟨x, rfl, hx, (admit_ok h).1⟩⟩
    · cases h
  | other => cases h

end Sys2Proof
end

