-- ==== Sys2Proof/Laws/State.lean ====
section
/-! SUPPORT. One lemma per field per update of State, and what reading a register or an instance gives after each update. -/

namespace Sys2Proof.Machine

variable (s : State)

@[simp] theorem State.setReg_cfg (t : RegNo) (v : Word) : (s.setReg t v).cfg = s.cfg := rfl
@[simp] theorem State.setReg_ctx (t : RegNo) (v : Word) : (s.setReg t v).ctx = s.ctx := rfl
@[simp] theorem State.setReg_par (t : RegNo) (v : Word) : (s.setReg t v).par = s.par := rfl
@[simp] theorem State.setReg_unsynced (t : RegNo) (v : Word) : (s.setReg t v).unsynced = s.unsynced := rfl
@[simp] theorem State.setReg_regs (t : RegNo) (v : Word) : (s.setReg t v).regs = s.regs.set t.toNat v t.isLt := rfl
@[simp] theorem State.setReg_draws (t : RegNo) (v : Word) : (s.setReg t v).draws = s.draws := rfl
@[simp] theorem State.setReg_program (t : RegNo) (v : Word) : (s.setReg t v).program = s.program := rfl

@[simp] theorem State.setPAR_cfg (inst : Inst) (v : DWord) : (s.setPAR inst v).cfg = s.cfg := rfl
@[simp] theorem State.setPAR_ctx (inst : Inst) (v : DWord) : (s.setPAR inst v).ctx = s.ctx := rfl
@[simp] theorem State.setPAR_par (inst : Inst) (v : DWord) : (s.setPAR inst v).par = s.par.set inst v := rfl
@[simp] theorem State.setPAR_unsynced (inst : Inst) (v : DWord) : (s.setPAR inst v).unsynced = s.unsynced := rfl
@[simp] theorem State.setPAR_regs (inst : Inst) (v : DWord) : (s.setPAR inst v).regs = s.regs := rfl
@[simp] theorem State.setPAR_draws (inst : Inst) (v : DWord) : (s.setPAR inst v).draws = s.draws := rfl
@[simp] theorem State.setPAR_program (inst : Inst) (v : DWord) : (s.setPAR inst v).program = s.program := rfl

@[simp] theorem State.markUnsynced_cfg (inst : Inst) : (s.markUnsynced inst).cfg = s.cfg := rfl
@[simp] theorem State.markUnsynced_ctx (inst : Inst) : (s.markUnsynced inst).ctx = s.ctx := rfl
@[simp] theorem State.markUnsynced_par (inst : Inst) : (s.markUnsynced inst).par = s.par := rfl
@[simp] theorem State.markUnsynced_unsynced (inst : Inst) : (s.markUnsynced inst).unsynced = s.unsynced.set inst true := rfl
@[simp] theorem State.markUnsynced_regs (inst : Inst) : (s.markUnsynced inst).regs = s.regs := rfl
@[simp] theorem State.markUnsynced_draws (inst : Inst) : (s.markUnsynced inst).draws = s.draws := rfl
@[simp] theorem State.markUnsynced_program (inst : Inst) : (s.markUnsynced inst).program = s.program := rfl

@[simp] theorem State.syncAll_cfg : (s.syncAll).cfg = s.cfg := rfl
@[simp] theorem State.syncAll_ctx : (s.syncAll).ctx = s.ctx := rfl
@[simp] theorem State.syncAll_par : (s.syncAll).par = s.par := rfl
@[simp] theorem State.syncAll_unsynced : (s.syncAll).unsynced = Banks.all false := rfl
@[simp] theorem State.syncAll_regs : (s.syncAll).regs = s.regs := rfl
@[simp] theorem State.syncAll_draws : (s.syncAll).draws = s.draws := rfl
@[simp] theorem State.syncAll_program : (s.syncAll).program = s.program := rfl

@[simp] theorem State.drawn_cfg (n : Nat) : (s.drawn n).cfg = s.cfg := rfl
@[simp] theorem State.drawn_ctx (n : Nat) : (s.drawn n).ctx = s.ctx := rfl
@[simp] theorem State.drawn_par (n : Nat) : (s.drawn n).par = s.par := rfl
@[simp] theorem State.drawn_unsynced (n : Nat) : (s.drawn n).unsynced = s.unsynced := rfl
@[simp] theorem State.drawn_regs (n : Nat) : (s.drawn n).regs = s.regs := rfl
@[simp] theorem State.drawn_draws (n : Nat) : (s.drawn n).draws = s.draws + n := rfl
@[simp] theorem State.drawn_program (n : Nat) : (s.drawn n).program = s.program := rfl

@[simp] theorem State.begin_cfg (ctx : Ctx) (rest : List Entry) : (s.begin ctx rest).cfg = s.cfg := rfl
@[simp] theorem State.begin_ctx (ctx : Ctx) (rest : List Entry) : (s.begin ctx rest).ctx = ctx := rfl
@[simp] theorem State.begin_par (ctx : Ctx) (rest : List Entry) : (s.begin ctx rest).par = s.par := rfl
@[simp] theorem State.begin_unsynced (ctx : Ctx) (rest : List Entry) : (s.begin ctx rest).unsynced = s.unsynced := rfl
@[simp] theorem State.begin_regs (ctx : Ctx) (rest : List Entry) : (s.begin ctx rest).regs = s.regs := rfl
@[simp] theorem State.begin_draws (ctx : Ctx) (rest : List Entry) : (s.begin ctx rest).draws = s.draws := rfl
@[simp] theorem State.begin_program (ctx : Ctx) (rest : List Entry) : (s.begin ctx rest).program = rest := rfl

/-! ## Reading an instance -/

@[simp] theorem Banks.get_set {α : Type} (b : Banks α) (inst j : Inst) (v : α) :
    (b.set inst v).get j = if j = inst then v else b.get j := by
  cases inst <;> cases j <;> rfl

@[simp] theorem Banks.get_all {α : Type} (v : α) (inst : Inst) : (Banks.all v).get inst = v := by
  cases inst <;> rfl

/-- Two families of values are the same when every instance holds the same value. -/
theorem Banks.ext_get {α : Type} {a b : Banks α} (h : ∀ inst, a.get inst = b.get inst) : a = b := by
  obtain ⟨a1, a2, a3⟩ := a
  obtain ⟨b1, b2, b3⟩ := b
  have h1 : a1 = b1 := h .par
  have h2 : a2 = b2 := h .parS
  have h3 : a3 = b3 := h .parNs
  rw [h1, h2, h3]

/-! ## Reading a register -/

@[simp] theorem State.reg_setReg (t u : RegNo) (v : Word) : (s.setReg t v).reg u = if u = t then v else s.reg u := by
  simp [State.reg, State.setReg, Vector.getElem_set, BitVec.toNat_eq, eq_comm]

@[simp] theorem State.reg_setPAR (inst : Inst) (v : DWord) (t : RegNo) : (s.setPAR inst v).reg t = s.reg t := rfl
@[simp] theorem State.reg_markUnsynced (inst : Inst) (t : RegNo) : (s.markUnsynced inst).reg t = s.reg t := rfl
@[simp] theorem State.reg_syncAll (t : RegNo) : (s.syncAll).reg t = s.reg t := rfl
@[simp] theorem State.reg_drawn (n : Nat) (t : RegNo) : (s.drawn n).reg t = s.reg t := rfl
@[simp] theorem State.reg_begin (ctx : Ctx) (rest : List Entry) (t : RegNo) : (s.begin ctx rest).reg t = s.reg t := rfl

/-! ## The words of a value -/

@[simp] theorem lowWord_joinWords (hi lo : Word) : lowWord (joinWords hi lo) = lo := by
  simp only [lowWord, joinWords, BitVec.extractLsb'_append_eq_ite]
  simp

@[simp] theorem highWord_joinWords (hi lo : Word) : highWord (joinWords hi lo) = hi := by
  simp only [highWord, joinWords, BitVec.extractLsb'_append_eq_ite]
  simp

@[simp] theorem lowWord_replaceLow (v : DWord) (lo : Word) : lowWord (replaceLow v lo) = lo := by simp [replaceLow]

@[simp] theorem highWord_replaceLow (v : DWord) (lo : Word) : highWord (replaceLow v lo) = highWord v := by simp [replaceLow]

end Sys2Proof.Machine
end

