-- ==== Sys2Proof/Laws/Ops.lean ====
section
/-! SUPPORT. What each shared operation can do, said once: the context premises, the access check, the instance selection, a direct
access, the two events and the step. -/

namespace Sys2Proof.Machine

variable {s s' : State}

/-- The premises W1 to W3 hold exactly when no defect is reported (R15). -/
theorem contextDefect_none_iff (s : State) : contextDefect s.cfg s.ctx = none ↔ s.ContextOk := by
  unfold contextDefect banked State.ContextOk
  cases s.ctx.el <;> cases s.cfg.haveEL2 <;> cases s.ctx.el2Enabled <;> cases s.cfg.haveEL3 <;>
    cases s.cfg.el3UsingAArch32 <;> simp

/-- The access check answers `Undefined` exactly for the two causes of R141. -/
theorem accessCheck_undefined_iff (s : State) (code : Nat) :
    accessCheck s.cfg s.ctx code = .stop .undefined ↔ s.AccessUndefined := by
  unfold accessCheck State.AccessUndefined
  cases s.cfg.parPresent <;> cases s.ctx.el <;> simp
  split <;> [simp; split <;> simp]

/-- Where the access check traps to an AArch64 EL2 (R142). -/
theorem accessCheck_a64_iff (s : State) (code : Nat) :
    accessCheck s.cfg s.ctx code = .stop (.a64SysTrap .el2 code) ↔ s.AccessTrapsToA64 := by
  unfold accessCheck State.AccessTrapsToA64
  by_cases hA : s.ctx.hstrEl2T7 = 1#1 <;> by_cases hB : s.ctx.hstrT7 = 1#1 <;>
    cases s.cfg.parPresent <;> cases s.ctx.el <;> cases s.ctx.el2Enabled <;> cases s.ctx.el2UsingAArch32 <;> simp [hA, hB]

/-- Where the access check traps to Hyp mode (R143). -/
theorem accessCheck_hyp_iff (s : State) (code : Nat) :
    accessCheck s.cfg s.ctx code = .stop (.hypTrap code) ↔ s.AccessTrapsToHyp := by
  unfold accessCheck State.AccessTrapsToHyp
  by_cases hA : s.ctx.hstrEl2T7 = 1#1 <;> by_cases hB : s.ctx.hstrT7 = 1#1 <;>
    cases s.cfg.parPresent <;> cases s.ctx.el <;> cases s.ctx.el2Enabled <;> cases s.ctx.el2UsingAArch32 <;> simp [hA, hB]

/-- The access check answers with nothing but the four outcomes of R146. -/
theorem accessCheck_cases (s : State) (code : Nat) :
    (accessCheck s.cfg s.ctx code = .stop .undefined ∧ s.AccessUndefined) ∨
    (accessCheck s.cfg s.ctx code = .stop (.a64SysTrap .el2 code) ∧ s.AccessTrapsToA64) ∨
    (accessCheck s.cfg s.ctx code = .stop (.hypTrap code) ∧ s.AccessTrapsToHyp) ∨
    (accessCheck s.cfg s.ctx code = .proceed ∧ s.AccessProceeds) := by
  have hu := accessCheck_undefined_iff s code
  have ha := accessCheck_a64_iff s code
  have hh := accessCheck_hyp_iff s code
  by_cases h1 : s.AccessUndefined
  · exact .inl ⟨hu.2 h1, h1⟩
  by_cases h2 : s.AccessTrapsToA64
  · exact .inr (.inl ⟨ha.2 h2, h2⟩)
  by_cases h3 : s.AccessTrapsToHyp
  · exact .inr (.inr (.inl ⟨hh.2 h3, h3⟩))
  refine .inr (.inr (.inr ⟨?_, h1, h2, h3⟩))
  clear hu ha hh
  revert h1 h2 h3
  unfold State.AccessUndefined State.AccessTrapsToA64 State.AccessTrapsToHyp accessCheck
  by_cases hA : s.ctx.hstrEl2T7 = 1#1 <;> by_cases hB : s.ctx.hstrT7 = 1#1 <;>
    cases s.cfg.parPresent <;> cases s.ctx.el <;> cases s.ctx.el2Enabled <;> cases s.ctx.el2UsingAArch32 <;> simp [hA, hB]

/-- The access proceeds exactly when none of the exceptional branches applies (R146). -/
theorem accessCheck_proceed_iff (s : State) (code : Nat) :
    accessCheck s.cfg s.ctx code = .proceed ↔ s.AccessProceeds := by
  constructor
  · intro h
    refine ⟨fun hu => ?_, fun ha => ?_, fun hh => ?_⟩
    · rw [(accessCheck_undefined_iff s code).2 hu] at h; cases h
    · rw [(accessCheck_a64_iff s code).2 ha] at h; cases h
    · rw [(accessCheck_hyp_iff s code).2 hh] at h; cases h
  · rintro ⟨h1, h2, h3⟩
    rcases accessCheck_cases s code with h | h | h | h
    · exact absurd h.2 h1
    · exact absurd h.2 h2
    · exact absurd h.2 h3
    · exact h.1

/-- The selected instance is the one R12 says, wherever an access proceeds. -/
theorem selectPAR_eq_of_reaches {inst : Inst} (h : s.Reaches inst) : selectPAR s.cfg s.ctx = inst := by
  unfold selectPAR banked
  rcases h with ⟨h1, h2, rfl⟩ | ⟨h1, h2, rfl⟩ | ⟨h1 | h1, h2, rfl⟩ | ⟨h1 | h1, h2, rfl⟩ <;> simp [h1] <;> simp_all

/-- Every access that proceeds reaches an instance (R160). -/
theorem reaches_selectPAR (h : s.ctx.el ≠ .el0) : s.Reaches (selectPAR s.cfg s.ctx) := by
  have hb : s.ctx.scrNs = 0#1 ∨ s.ctx.scrNs = 1#1 := by
    generalize s.ctx.scrNs = b
    revert b; decide
  unfold selectPAR banked State.Reaches
  cases hel : s.ctx.el <;> rcases hb with hb | hb <;> cases s.cfg.haveEL3 <;> cases s.cfg.el3UsingAArch32 <;> simp_all

/-- The instance a proceeding access reaches exists (R11, R12): "a context with EL3 and not Banked" is refused. -/
theorem instExists_selectPAR (hc : s.ContextOk) (hp : s.AccessProceeds) :
    instExists s.cfg (selectPAR s.cfg s.ctx) = true := by
  obtain ⟨hw1, -, -⟩ := hc
  obtain ⟨hu, -, -⟩ := hp
  unfold State.AccessUndefined at hu
  unfold selectPAR instExists banked
  cases hel : s.ctx.el <;> cases h3 : s.cfg.haveEL3 <;> cases ha : s.cfg.el3UsingAArch32 <;>
    cases hpr : s.cfg.parPresent <;> by_cases hn : s.ctx.scrNs = 0#1 <;> simp_all

/-- Everything a direct access that answers a next state can have done: its effect, or nothing at all when its condition failed. -/
theorem directAccess_next {code : Nat} {act : Inst → State → State} (h : directAccess code act s = .next s') :
    s.ContextOk ∧ s.AccessProceeds ∧
      ((s.ctx.condPassed = false ∧ s' = s) ∨
       (s.ctx.condPassed = true ∧ s.Synchronised (selectPAR s.cfg s.ctx) ∧ s' = act (selectPAR s.cfg s.ctx) s)) := by
  unfold directAccess at h
  split at h
  · cases h
  next hc =>
    have hok := (contextDefect_none_iff s).1 hc
    rcases accessCheck_cases s code with hk | hk | hk | hk
    all_goals rw [hk.1] at h
    all_goals cases hcp : s.ctx.condPassed <;> simp only [hcp, gate, takeException] at h
    · cases h
    · cases h
    · cases h
    · cases h
    · cases h
    · cases h
    · refine ⟨hok, hk.2, .inl ⟨rfl, ?_⟩⟩
      simp at h
      exact h.symm
    · refine ⟨hok, hk.2, .inr ⟨rfl, ?_⟩⟩
      simp only [if_true] at h
      split at h
      · cases h
      next hs =>
        simp only [Host.Outcome.next.injEq] at h
        refine ⟨fun hr => ?_, h.symm⟩
        simpa [hr] using hs

/-- A ready access completes with its effect. -/
theorem directAccess_ready {code : Nat} {act : Inst → State → State} {inst : Inst} (h : s.AccessReady inst) :
    directAccess code act s = .next (act inst s) := by
  obtain ⟨hc, hp, hcp, hr, hs⟩ := h
  have hsel := selectPAR_eq_of_reaches hr
  unfold directAccess
  rw [(contextDefect_none_iff s).2 hc, (accessCheck_proceed_iff s code).2 hp, hcp, hsel]
  have hb : (s.cfg.syncRequired && s.unsynced.get inst) = false := by
    cases hq : s.cfg.syncRequired
    · rfl
    · simpa using hs hq
  simp [gate, hb]

/-- An access whose condition fails and which would proceed has no effect (R18). -/
theorem directAccess_condFailed {code : Nat} {act : Inst → State → State} (hc : s.ContextOk) (hp : s.AccessProceeds)
    (hcp : s.ctx.condPassed = false) : directAccess code act s = .next s := by
  unfold directAccess
  rw [(contextDefect_none_iff s).2 hc, (accessCheck_proceed_iff s code).2 hp, hcp]
  rfl

/-- Everything that can make a direct access fault (R146, R147). -/
theorem directAccess_fault {code : Nat} {act : Inst → State → State} {f : Fault} (h : directAccess code act s = .fault f) :
    s.ContextOk ∧ s.ctx.condPassed = true ∧
      ((f = .undefined ∧ s.AccessUndefined) ∨ (f = .a64SysTrap .el2 code ∧ s.AccessTrapsToA64) ∨
       (f = .hypTrap code ∧ s.AccessTrapsToHyp)) := by
  unfold directAccess at h
  split at h
  · cases h
  next hc =>
    have hok := (contextDefect_none_iff s).1 hc
    rcases accessCheck_cases s code with hk | hk | hk | hk
    all_goals rw [hk.1] at h
    all_goals cases hcp : s.ctx.condPassed <;> simp only [hcp, gate, takeException] at h
    · cases h
    · simp at h; exact ⟨hok, rfl, .inl ⟨h.symm, hk.2⟩⟩
    · cases h
    · simp at h; exact ⟨hok, rfl, .inr (.inl ⟨h.symm, hk.2⟩)⟩
    · cases h
    · simp at h; exact ⟨hok, rfl, .inr (.inr ⟨h.symm, hk.2⟩)⟩
    · cases h
    · simp only [if_true] at h
      split at h <;> cases h

/-- A direct access whose check stops it faults when its condition passed, and is refused when it failed (R146, R147). -/
theorem directAccess_stop {code : Nat} {act : Inst → State → State} {f : Fault} (hc : s.ContextOk)
    (hk : accessCheck s.cfg s.ctx code = .stop f) :
    directAccess code act s =
      if s.ctx.condPassed = true then .fault f else .refused .failedConditionOnFault := by
  unfold directAccess
  rw [(contextDefect_none_iff s).2 hc, hk]
  cases s.ctx.condPassed <;> rfl

/-- An access with admitted register numbers is the access (R100). -/
theorem registerAccess_ok {ok : Bool} {code : Nat} {act : Inst → State → State} (h : ok = true) :
    registerAccess ok code act s = directAccess code act s := by
  simp [registerAccess, h]

/-- An access that answers a next state had admitted register numbers (R100). -/
theorem registerAccess_next {ok : Bool} {code : Nat} {act : Inst → State → State}
    (h : registerAccess ok code act s = .next s') : ok = true ∧ directAccess code act s = .next s' := by
  cases ok
  · cases h
  · exact ⟨rfl, h⟩

/-- Everything a direct access can have done when it answers a next state, its register numbers included. -/
theorem registerAccess_cases {ok : Bool} {code : Nat} {act : Inst → State → State}
    (h : registerAccess ok code act s = .next s') :
    ok = true ∧ s.ContextOk ∧ s.AccessProceeds ∧
      ((s.ctx.condPassed = false ∧ s' = s) ∨
       (s.AccessReady (selectPAR s.cfg s.ctx) ∧ s' = act (selectPAR s.cfg s.ctx) s)) := by
  obtain ⟨hok, hd⟩ := registerAccess_next h
  obtain ⟨hc, hp, hr⟩ := directAccess_next hd
  refine ⟨hok, hc, hp, hr.imp id ?_⟩
  rintro ⟨hcp, hs, he⟩
  exact ⟨⟨hc, hp, hcp, reaches_selectPAR fun h0 => hp.1 (.inr h0), hs⟩, he⟩

/-- Every instruction is a direct access with its own code, whose register numbers are admitted when it is well formed. -/
theorem exec_eq_registerAccess (i : Instr) :
    ∃ ok act, (i.wellFormed = true → ok = true) ∧ ∀ s, exec i s = registerAccess ok (accessCode i) act s := by
  cases i with
  | mrc c t => exact ⟨_, _, by simp [Instr.wellFormed, oneRegOk], fun _ => rfl⟩
  | mcr c t => exact ⟨_, _, by simp [Instr.wellFormed, oneRegOk], fun _ => rfl⟩
  | mrrc c t t2 =>
    refine ⟨_, _, ?_, fun _ => rfl⟩
    simp only [Instr.wellFormed, twoDestOk, Bool.and_eq_true]
    rintro ⟨⟨⟨-, h1⟩, h2⟩, h3⟩
    exact ⟨⟨h1, h2⟩, h3⟩
  | mcrr c t t2 =>
    refine ⟨_, _, ?_, fun _ => rfl⟩
    simp only [Instr.wellFormed, twoSourceOk, Bool.and_eq_true]
    rintro ⟨⟨-, h1⟩, h2⟩
    exact ⟨h1, h2⟩

/-- When an `ATResult` is an event of the machine (R110). -/
theorem eventDefect_none_iff (s : State) (inst : Inst) (res : ATResult) :
    eventDefect s.cfg s.ctx inst res = none ↔
      s.ContextOk ∧ instExists s.cfg inst = true ∧ resultDefect s.cfg res = none := by
  rw [← contextDefect_none_iff]
  unfold eventDefect
  cases contextDefect s.cfg s.ctx with
  | some r => simp
  | none =>
    cases hp : s.cfg.parPresent <;> cases he : instExists s.cfg inst <;> simp
    cases inst <;> simp [instExists, hp] at he

/-- Everything the write-back event can do when it answers a next state (R110). -/
theorem execATResult_next {inst : Inst} {res : ATResult} (h : execATResult inst res s = .next s') :
    s.ContextOk ∧ instExists s.cfg inst = true ∧ resultDefect s.cfg res = none ∧ s' = writeBack inst res s := by
  unfold execATResult at h
  split at h
  · cases h
  next hd =>
    obtain ⟨h1, h2, h3⟩ := (eventDefect_none_iff s inst res).1 hd
    simp only [Host.Outcome.next.injEq] at h
    exact ⟨h1, h2, h3, h.symm⟩

/-- The write-back event under its precondition (R110). -/
theorem execATResult_ok {inst : Inst} {res : ATResult} (hc : s.ContextOk) (he : instExists s.cfg inst = true)
    (hd : resultDefect s.cfg res = none) : execATResult inst res s = .next (writeBack inst res s) := by
  rw [execATResult, (eventDefect_none_iff s inst res).2 ⟨hc, he, hd⟩]

/-- Everything the Context synchronization event can do when it answers a next state (R83). -/
theorem execContextSync_next (h : execContextSync s = .next s') : s.ContextOk ∧ s' = s.syncAll := by
  unfold execContextSync at h
  split at h
  · cases h
  next hc =>
    simp only [Host.Outcome.next.injEq] at h
    exact ⟨(contextDefect_none_iff s).1 hc, h.symm⟩

/-- Everything a step can do when it answers a next state: the head of the program ran as an instruction or as one of the two events. -/
theorem step_next (h : step s = .next s') :
    ∃ e rest, s.program = e :: rest ∧
      ((∃ i, fetchItem e.item = .instr i ∧ exec i (s.begin e.ctx rest) = .next s') ∨
       (∃ inst res, fetchItem e.item = .atResult inst res ∧ execATResult inst res (s.begin e.ctx rest) = .next s') ∨
       (fetchItem e.item = .contextSync ∧ execContextSync (s.begin e.ctx rest) = .next s')) := by
  unfold step at h
  split at h
  · cases h
  next e rest hp =>
    refine ⟨e, rest, hp, ?_⟩
    split at h
    next i hi => exact .inl ⟨i, hi, h⟩
    next inst res hi => exact .inr (.inl ⟨inst, res, hi, h⟩)
    next hi => exact .inr (.inr ⟨hi, h⟩)
    · cases h


/-- `exists(inst)` as R11 tabulates it. -/
theorem instExists_iff (cfg : Config) (inst : Inst) : instExists cfg inst = true ↔ InstPresent cfg inst := by
  unfold instExists InstPresent banked
  cases inst <;> cases cfg.parPresent <;> cases cfg.haveEL3 <;> cases cfg.el3UsingAArch32 <;> simp

end Sys2Proof.Machine
end

