-- ==== Sys2Proof/Laws/PerInstr.lean ====
section
/-! SUPPORT. The per-instruction family TupleRoundTrip: the decode procedure of R103 reads a well-formed instruction back from its own
tuple (R93), one lemma per constructor. -/

namespace Sys2Proof.Laws.TupleRoundTrip

/-- Decoding the tuple of a well-formed instruction gives the instruction. -/
def Statement (i : Sys2Proof.Instr) : Prop := i.wellFormed = true → Sys2Proof.decodeTuple (Sys2Proof.tupleOf i) = .ok i

theorem mrc (cond : BitVec 4) (rt : Sys2Proof.RegNo) : Statement (.mrc cond rt) := fun h => admitInstr_of_wellFormed h

theorem mcr (cond : BitVec 4) (rt : Sys2Proof.RegNo) : Statement (.mcr cond rt) := fun h => admitInstr_of_wellFormed h

theorem mrrc (cond : BitVec 4) (rt rt2 : Sys2Proof.RegNo) : Statement (.mrrc cond rt rt2) := fun h => admitInstr_of_wellFormed h

theorem mcrr (cond : BitVec 4) (rt rt2 : Sys2Proof.RegNo) : Statement (.mcrr cond rt rt2) := fun h => admitInstr_of_wellFormed h

end Sys2Proof.Laws.TupleRoundTrip
end

