-- ==== Sys2Proof/Tests/Slice0.lean ====
section
/-! SUPPORT. Tests. The expected results are the vectors of 95_test_vectors.md, or worked by hand from the rule named; a witness shows
that the hypotheses of a statement can be met together. -/

namespace Sys2Proof.Tests

open Sys2Proof Sys2Proof.Machine

/-! ## Helpers -/

/-- The next state of an outcome, if it has one. -/
def got : Host.Outcome State Fault Refusal → Option State
  | .next t => some t
  | _ => none

/-- The reason an outcome stops for, if it stops. -/
def stop : Host.Outcome State Fault Refusal → Option (Fault ⊕ Refusal)
  | .next _ => none
  | .fault f => some (.inl f)
  | .refused r => some (.inr r)

/-- The configuration and the context of 95_test_vectors.md part 4: EL1, EL2 not enabled, not banked. -/
def base : State where
  cfg := { parPresent := true, haveEL2 := true, haveEL3 := false, el3UsingAArch32 := false, paSize := 40, haveRAS := false,
           haveExtAbortClass := true, syncRequired := true }
  ctx := { el := .el1, scrNs := 0#1, el2Enabled := false, el2UsingAArch32 := false, hstrT7 := 0#1, hstrEl2T7 := 0#1,
           condPassed := true }
  par := { par := 0xFEDCBA9876543210#64, parS := 0#64, parNs := 0x5555555555555555#64 }
  unsynced := Banks.all false
  regs := #v[0xDEADBEEF#32, 0x22222222#32, 2#32, 3#32, 4#32, 0xA5A5A5A5#32, 6#32, 7#32, 8#32, 9#32, 10#32, 11#32, 12#32, 13#32,
    14#32, 15#32]
  draws := 0
  program := []

/-- `base` with its context changed. -/
def withCtx (f : Ctx → Ctx) : State := { base with ctx := f base.ctx }

/-- `base` with EL3 present and using AArch32, so banked. -/
def bankedBase (f : Ctx → Ctx) : State :=
  { base with cfg := { base.cfg with haveEL3 := true, el3UsingAArch32 := true }, ctx := f base.ctx }

/-- EL1 under an enabled EL2 that uses AArch32, HSTR.T7 set. -/
def hypTrapped : State := withCtx fun c => { c with el2Enabled := true, el2UsingAArch32 := true, hstrT7 := 1#1 }

/-- EL1 under an enabled EL2 that uses AArch64, HSTR_EL2.T7 set. -/
def a64Trapped : State := withCtx fun c => { c with el2Enabled := true, hstrEl2T7 := 1#1 }

/-- EL0. -/
def atEL0 : State := withCtx fun c => { c with el := .el0 }

/-- The same state with the condition failed. -/
def failed (s : State) : State := { s with ctx := { s.ctx with condPassed := false } }

/-- A write-back to PAR is outstanding. -/
def outstanding : State := base.markUnsynced .par

/-- One step to run. -/
def running (item : Item) : State := { base with program := [{ ctx := base.ctx, item := item }] }

/-- No open bit set. -/
def noFree : FreeBits := ⟨0, 0, 0, 0, 0, 0, 0, 0, 0, 0⟩

/-- Every open bit set. -/
def allFree : FreeBits := ⟨0xFFFFFFFF, 0xFFFFFFFFFF, 1, 1, 1, 0xFFFF, 1, 0xFF, 0xF, 0xF⟩

/-- Vector A1's result. -/
def a1 : S32Result := { oa := 0x0012345000#40, ss := 0, secureRegime := true, ns := 0, sh := 1, nos := 0, inner := 0b101, outer := 0b01 }

/-- Vector A7's result. -/
def a7 : S32Result := { oa := 0xABCD000000#40, ss := 1, secureRegime := true, ns := 0, sh := 1, nos := 1, inner := 0b011, outer := 0b10 }

/-- Vector C1's result. -/
def c1 : S64Result := { attr := 0xFF, oa := 0x8012345000#40, secureRegime := true, ns := 0, sh := 0b11 }

/-! ## WellFormed: an ill-formed term for each check (R96, R100) -/

theorem test_wellFormed_refuses_cond_15 :
    (Instr.mrc 15 0).wellFormed = false ∧ (Instr.mcr 15 0).wellFormed = false ∧
    (Instr.mrrc 15 0 1).wellFormed = false ∧ (Instr.mcrr 15 0 1).wellFormed = false := by decide

theorem test_wellFormed_refuses_register_15 :
    (Instr.mrc 14 15).wellFormed = false ∧ (Instr.mcr 14 15).wellFormed = false ∧
    (Instr.mrrc 14 15 1).wellFormed = false ∧ (Instr.mrrc 14 0 15).wellFormed = false ∧
    (Instr.mcrr 14 15 1).wellFormed = false ∧ (Instr.mcrr 14 0 15).wellFormed = false := by decide

theorem test_wellFormed_equal_registers :
    (Instr.mrrc 14 2 2).wellFormed = false ∧ (Instr.mcrr 14 5 5).wellFormed = true ∧
    (Instr.mrc 14 14).wellFormed = true ∧ (Instr.mcr 0 13).wellFormed = true := by decide

/-! ## Decode: the words W1 to W20 of part 5 -/

theorem test_decode_mrc :
    decodeA32 0xEE170F14#32 = .ok (.mrc 14 0) ∧ decodeA32 0xEE172F14#32 = .ok (.mrc 14 2) ∧
    decodeA32 0xEE17EF14#32 = .ok (.mrc 14 14) ∧ decodeA32 0x0E171F14#32 = .ok (.mrc 0 1) := by decide

theorem test_decode_mcr :
    decodeA32 0xEE070F14#32 = .ok (.mcr 14 0) ∧ decodeA32 0xEE073F14#32 = .ok (.mcr 14 3) ∧
    decodeA32 0x1E071F14#32 = .ok (.mcr 1 1) := by decide

theorem test_decode_mrrc :
    decodeA32 0xEC510F07#32 = .ok (.mrrc 14 0 1) ∧ decodeA32 0xEC543F07#32 = .ok (.mrrc 14 3 4) ∧
    decodeA32 0xEC50EF07#32 = .ok (.mrrc 14 14 0) := by decide

theorem test_decode_mcrr :
    decodeA32 0xEC410F07#32 = .ok (.mcrr 14 0 1) ∧ decodeA32 0xEC432F07#32 = .ok (.mcrr 14 2 3) ∧
    decodeA32 0xEC455F07#32 = .ok (.mcrr 14 5 5) := by decide

theorem test_decode_refuses :
    decodeA32 0xEE170F34#32 = .error .otherRegister ∧ decodeA32 0xEE170F15#32 = .error .otherRegister ∧
    decodeA32 0xEE370F14#32 = .error .otherRegister ∧ decodeA32 0xEC510F17#32 = .error .otherRegister ∧
    decodeA32 0xEC510F02#32 = .error .otherRegister ∧ decodeA32 0xFE170F14#32 = .error .condition ∧
    decodeA32 0xEE17FF14#32 = .error .registerNumber ∧ decodeA32 0xEC522F07#32 = .error .registerNumber ∧
    decodeA32 0x00000000#32 = .error .notAnAccess := by decide

theorem test_decode_t32 :
    decodeT32 0xEE17#16 0x0F14#16 = .ok (.mrc 14 0) ∧ decodeT32 0xEE07#16 0x0F14#16 = .ok (.mcr 14 0) ∧
    decodeT32 0xEC51#16 0x0F07#16 = .ok (.mrrc 14 0 1) ∧ decodeT32 0xEC41#16 0x0F07#16 = .ok (.mcrr 14 0 1) ∧
    decodeT32 0x0E17#16 0x1F14#16 = .error .notAnAccess := by decide

theorem test_encode :
    encode (.mrc 14 2) = [0xEE172F14#32] ∧ encode (.mcr 1 1) = [0x1E071F14#32] ∧
    encode (.mrrc 14 3 4) = [0xEC543F07#32] ∧ encode (.mcrr 14 5 5) = [0xEC455F07#32] ∧
    encodeT32 (.mrrc 14 3 4) = some (0xEC54#16, 0x3F07#16) ∧ encodeT32 (.mcr 1 1) = none := by decide

/-- The rows of spec/opcode_table.json, with cond 0 and, for MRRC, Rt2 = 1 (R100 refuses Rt = Rt2). -/
theorem test_decodeTableWord :
    decodeTableWord 32 0x0E170F14 = some (.mrc 0 0) ∧ decodeTableWord 32 0x0E070F14 = some (.mcr 0 0) ∧
    decodeTableWord 32 0x0C510F07 = some (.mrrc 0 0 1) ∧ decodeTableWord 32 0x0C500F07 = none ∧
    decodeTableWord 32 0x0C400F07 = some (.mcrr 0 0 0) := by decide

/-! ## The four accesses: vectors of part 4, one step each -/

theorem test_mrc_M1 :
    (got (exec (.mrc 14 3) base)).map (fun t => (t.reg 3, t.par.par)) = some (0x76543210#32, 0xFEDCBA9876543210#64) := by decide

theorem test_mcr_M3 :
    (got (exec (.mcr 14 0) (base.setPAR .par 0x0123456789ABCDEF#64))).map (fun t => t.par.par) = some 0x01234567DEADBEEF#64 := by
  decide

theorem test_mrrc_Q4 :
    (got (exec (.mrrc 14 14 0) (base.setPAR .par 0x0000000100000002#64))).map (fun t => (t.reg 14, t.reg 0)) =
      some (2#32, 1#32) := by decide

theorem test_mcrr_Q3 :
    (got (exec (.mcrr 14 5 5) base)).map (fun t => t.par.par) = some 0xA5A5A5A5A5A5A5A5#64 := by decide

/-- Q7: at EL3 with SCR.NS = 0 the Secure instance is written and the other kept. -/
theorem test_mcrr_Q7 :
    (got (exec (.mcrr 14 2 3) (bankedBase fun c => { c with el := .el3 }))).map (fun t => (t.par.parS, t.par.parNs)) =
      some (0x0000000300000002#64, 0x5555555555555555#64) := by decide

/-- M6, Q5, Q6. -/
theorem test_inadmissible_registers :
    stop (exec (.mrc 14 15) base) = some (.inr .registerNumber) ∧
    stop (exec (.mrrc 14 2 2) base) = some (.inr .registerNumber) ∧
    stop (exec (.mcrr 14 0 15) base) = some (.inr .registerNumber) := by decide

/-! ## The access checks: vectors V1 to V17 of part 3 -/

theorem test_access_check_faults :
    stop (exec (.mrc 14 0) (withCtx fun c => { c with el := .el0 })) = some (.inl .undefined) ∧
    stop (exec (.mrc 14 0) { hypTrapped with ctx := { hypTrapped.ctx with el := .el0 } }) = some (.inl .undefined) ∧
    stop (exec (.mrc 14 0) a64Trapped) = some (.inl (.a64SysTrap .el2 3)) ∧
    stop (exec (.mcrr 14 0 1) a64Trapped) = some (.inl (.a64SysTrap .el2 4)) ∧
    stop (exec (.mcr 14 0) hypTrapped) = some (.inl (.hypTrap 3)) ∧
    stop (exec (.mrrc 14 0 1) hypTrapped) = some (.inl (.hypTrap 4)) ∧
    stop (exec (.mrc 14 0) { base with cfg := { base.cfg with parPresent := false } }) = some (.inl .undefined) := by decide

theorem test_access_check_proceeds :
    (got (exec (.mrc 14 0) { a64Trapped with ctx := { a64Trapped.ctx with hstrT7 := 1, hstrEl2T7 := 0 } })).isSome = true ∧
    (got (exec (.mrc 14 0) { hypTrapped with ctx := { hypTrapped.ctx with hstrT7 := 0, hstrEl2T7 := 1 } })).isSome = true ∧
    (got (exec (.mrc 14 0) (withCtx fun c => { c with hstrT7 := 1, hstrEl2T7 := 1 }))).isSome = true ∧
    (got (exec (.mrc 14 0) { hypTrapped with ctx := { hypTrapped.ctx with el := .el2, hstrEl2T7 := 1 } })).isSome = true := by
  decide

theorem test_access_check_instances :
    (got (exec (.mrc 14 0) (bankedBase id))).map (fun t => t.reg 0) = some 0x55555555#32 ∧
    (got (exec (.mrc 14 0) (bankedBase fun c => { c with el := .el2 }))).map (fun t => t.reg 0) = some 0x55555555#32 ∧
    (got (exec (.mrc 14 0) (bankedBase fun c => { c with el := .el3 }))).map (fun t => t.reg 0) = some 0#32 ∧
    (got (exec (.mrc 14 0) (bankedBase fun c => { c with el := .el3, scrNs := 1 }))).map (fun t => t.reg 0) =
      some 0x55555555#32 := by decide

theorem test_access_check_refusals :
    stop (exec (.mrc 14 0) (withCtx fun c => { c with el := .el3 })) = some (.inr .contextW1) ∧
    got (exec (.mrc 14 0) (withCtx fun c => { c with condPassed := false })) =
      some (withCtx fun c => { c with condPassed := false }) ∧
    stop (exec (.mrc 14 0) (withCtx fun c => { c with el := .el0, condPassed := false })) =
      some (.inr .failedConditionOnFault) ∧
    stop (exec (.mrc 14 0) outstanding) = some (.inr (.unsynchronised .par)) := by decide

/-! ## The write-back: vectors of part 2 -/

/-- A1, A4, A5, A9 with no open bit set, then A4's `ImpDef` bit set. -/
theorem test_valueS32_page :
    valueS32 40 noFree a1 = 0x123450D4#64 ∧
    valueS32 40 { noFree with s32Bit8 := 1 } { a1 with oa := 0x00FFFFF000, ns := 1, nos := 1, inner := 0b111, outer := 0b11 } =
      0xFFFFF7FC#64 ∧
    valueS32 40 noFree { a1 with oa := 0, inner := 0, outer := 0 } = 0x80#64 ∧
    valueS32 40 noFree { a1 with oa := 0xAB12345000 } = 0x123450D4#64 := by decide

/-- A2, A6: NOS and NS drawn. -/
theorem test_valueS32_draws :
    valueS32 40 noFree { a7 with ns := 1, sh := 0, inner := 0, outer := 0 } = 0xCDAB0202#64 ∧
    valueS32 40 { noFree with nos := 1 } { a7 with ns := 1, sh := 0, inner := 0, outer := 0 } = 0xCDAB0602#64 ∧
    valueS32 40 { noFree with ns := 1 } { a1 with secureRegime := false } = 0x123452D4#64 := by decide

/-- A3, A7, A8: the Supersection packing with 40, 36 and 32 address bits, the unimplemented bits first 0, then 1. -/
theorem test_valueS32_supersection :
    valueS32 40 noFree { a7 with oa := 0xABCD123000, ns := 1, sh := 0, inner := 0, outer := 0 } = 0xCDAB0202#64 ∧
    valueS32 36 noFree a7 = 0xCD0B04BA#64 ∧ valueS32 36 { noFree with oa := 0xFFFFFFFFFF } a7 = 0xCDFB04BA#64 ∧
    valueS32 32 noFree a7 = 0xCD0004BA#64 ∧ valueS32 32 { noFree with oa := 0xFFFFFFFFFF } a7 = 0xCDFF04BA#64 := by decide

/-- B1, B3, B7. -/
theorem test_valueF32 :
    valueF32 noFree { fs5 := 0, fs := 0b00101 } = 0xB#64 ∧ valueF32 noFree { fs5 := 1, fs := 0b01100 } = 0x59#64 ∧
    valueF32 { noFree with f32Bits31To16 := 0xFFFF } { fs5 := 1, fs := 0b01110 } = 0xFFFF005D#64 := by decide

/-- C1, C2, C5, C6. -/
theorem test_valueS64 :
    valueS64 noFree c1 = 0xFF00008012345980#64 ∧
    valueS64 { noFree with s64Bit10 := 1 } { attr := 0x04, oa := 0xFFFFFFF000, secureRegime := true, ns := 1, sh := 0b10 } =
      0x040000FFFFFFFF00#64 ∧
    valueS64 { noFree with ns := 1 } { c1 with secureRegime := false } = 0xFF00008012345B80#64 ∧
    valueS64 noFree { c1 with oa := 0x8012345ABC } = 0xFF00008012345980#64 := by decide

/-- E1, E3, E5. -/
theorem test_valueF64 :
    valueF64 noFree { fstage := 1, s2wlk := 1, fst := 0b000111 } = 0xB0F#64 ∧
    valueF64 noFree { fstage := 0, s2wlk := 0, fst := 0b110000 } = 0x861#64 ∧
    valueF64 allFree { fstage := 1, s2wlk := 1, fst := 0b011111 } = 0xFFFF000000000B3F#64 := by decide

/-- X1 to X7, and the parity code that is permitted without FEAT_RAS. -/
theorem test_resultDefect :
    resultDefect base.cfg (.s32 { a1 with inner := 0b010 }) = some .reservedInner ∧
    resultDefect base.cfg (.s64 { c1 with sh := 0b01 }) = some .reservedSH ∧
    resultDefect base.cfg (.f32 { fs5 := 0, fs := 0 }) = some .unlistedFS ∧
    resultDefect base.cfg (.f64 { fstage := 0, s2wlk := 0, fst := 0b100001 }) = some .unlistedFST ∧
    resultDefect base.cfg (.f32 { fs5 := 1, fs := 0b00101 }) = some .externalAbortBit ∧
    resultDefect { base.cfg with haveExtAbortClass := false } (.f32 { fs5 := 1, fs := 0b01100 }) = some .externalAbortBit ∧
    resultDefect { base.cfg with haveRAS := true } (.f32 { fs5 := 0, fs := 0b11110 }) = some .unlistedFS ∧
    resultDefect base.cfg (.f32 { fs5 := 1, fs := 0b11110 }) = none := by decide

/-- X8, X9. -/
theorem test_events_on_missing_instances :
    stop (execATResult .par (.s32 a1) (bankedBase id)) = some (.inr (.noSuchInst .par)) ∧
    stop (execATResult .parS (.s32 a1) base) = some (.inr (.noSuchInst .parS)) ∧
    stop (execATResult .par (.s32 a1) { base with cfg := { base.cfg with parPresent := false } }) =
      some (.inr .eventWithoutPAR) := by decide

/-- K1, K2, K3, K4, K5, with the meanings of R25, R29, R30 and R40. -/
theorem test_parView :
    parView 0x123450D4#64 = .s32 { pa := .page 0x12345, nos := 0, ns := 0, impDef8 := 0, sh := 1, inner := 0b101, outer := 0b01 } ∧
    parView 0xCDAB0602#64 =
      .s32 { pa := .supersection 0xCD 0xAB, nos := 1, ns := 1, impDef8 := 0, sh := 0, inner := 0, outer := 0 } ∧
    parView 0x59#64 = .f32 { impDef31To16 := 0, fs5 := 1, fs := 0b01100 } ∧
    parView 0xFF00008012345980#64 = .s64 { attr := 0xFF, oa39To12 := 0x8012345, impDef10 := 0, ns := 0, sh := 0b11 } ∧
    parView 0xB0F#64 =
      .f64 { impDef63To56 := 0, impDef55To52 := 0, impDef51To48 := 0, fstage := 1, s2wlk := 1, fst := 0b000111 } ∧
    shareabilityS32 1 0 = .outerShareable ∧ innerAttr 0b101 = some .writeBackWriteAllocate ∧ innerAttr 0b010 = none ∧
    outerAttr 0b01 = .writeBackWriteAllocate ∧ fsStatus false 0b01100 = some (.externalAbortOnWalk 1) ∧
    shareabilityS64 0b01 = none ∧ faultStage 1 = .stage2 ∧ stage2DuringStage1Walk 1 = true := by decide

/-! ## The step -/

theorem test_step_runs_each_form :
    (got (step (running (.a32 0xEE173F14#32)))).map (fun t => t.reg 3) = some 0x76543210#32 ∧
    (got (step (running (.t32 0xEE17#16 0x3F14#16)))).map (fun t => t.reg 3) = some 0x76543210#32 ∧
    (got (step (running (.tuple (tupleOf (.mrc 14 3)))))).map (fun t => t.reg 3) = some 0x76543210#32 ∧
    stop (step (running (.a32 0xEE170F34#32))) = some (.inr (.undecodable .otherRegister)) ∧
    stop (step base) = some (.inr .endOfProgram) := by decide

/-- From reset, with the word of each row placed, the first step completes. -/
theorem test_first_step_after_reset :
    (got (step (State.reset.withFetchWord 32 0x0E170F14))).isSome = true ∧
    (got (step (State.reset.withFetchWord 32 0x0E070F14))).isSome = true ∧
    (got (step (State.reset.withFetchWord 32 0x0C510F07))).isSome = true ∧
    (got (step (State.reset.withFetchWord 32 0x0C400F07))).isSome = true := by decide

theorem test_step_runs_events :
    (got (step (running (.atResult .par (.s32 a1))))).map (fun t => t.unsynced.par) = some true ∧
    (got (step { outstanding with program := [{ ctx := base.ctx, item := .contextSync }] })).map (fun t => t.unsynced.par) =
      some false := by decide

/-! ## Witnesses: the hypotheses of the statements, met together -/

/-- Well-formed instructions of every form, one with a condition other than AL (DecodeEncodeA32RoundTrip, DecodeEncodeT32RoundTrip). -/
theorem test_witness_wellFormed :
    (Instr.mrc 14 14).wellFormed = true ∧ (Instr.mcr 0 0).wellFormed = true ∧ (Instr.mrrc 14 14 0).wellFormed = true ∧
    (Instr.mcrr 14 5 5).wellFormed = true ∧ (Instr.mrc 14 14).cond = 0b1110#4 ∧ (Instr.mcr 0 0).cond ≠ 0b1110#4 := by decide

/-- DecodedWordIsTheInstructionsWord. -/
theorem test_witness_decoded_word : decodeA32 0xEC50EF07#32 = .ok (.mrrc 14 14 0) := by decide

/-- NeighbouringEncodingsAreRefused: a step whose tuple names opc2 = 1, and one whose 64-bit tuple names opc1 = 1. -/
theorem test_witness_neighbouring :
    (∃ e rest, (running (.tuple (.sys32 { sys32PAR .read 14 0 with opc2 := 1 }))).program = e :: rest ∧
      e.item = .tuple (.sys32 { sys32PAR .read 14 0 with opc2 := 1 }) ∧ (1#3 : BitVec 3) ≠ 0b000#3) ∧
    (∃ e rest, (running (.tuple (.sys64 { sys64PAR .write 14 0 1 with opc1 := 1 }))).program = e :: rest ∧
      e.item = .tuple (.sys64 { sys64PAR .write 14 0 1 with opc1 := 1 }) ∧ (1#4 : BitVec 4) ≠ 0b0000#4) :=
  ⟨⟨_, _, rfl, rfl, by decide⟩, ⟨_, _, rfl, rfl, by decide⟩⟩

/-- InadmissibleRegistersAreRefused: each clause at register 15, MRRC with t = t2, and MCRR with t = t2 at register 14. -/
theorem test_witness_inadmissible :
    (14#4 : BitVec 4) ≠ 0b1111#4 ∧ (15#4 : RegNo) = 15#4 ∧ (2#4 : RegNo) = 2#4 ∧ (14#4 : RegNo) ≠ 15#4 := by decide

/-- AssemblerLinesNameTheInstructions: cond 0 and `<c>` left out, t = 14, t2 = 0, `<opc2>` left out and written. -/
theorem test_witness_assembler :
    (0#4 : BitVec 4) ≠ 0b1111#4 ∧ (14#4 : RegNo) ≠ 15#4 ∧ (0#4 : RegNo) ≠ 15#4 ∧ (14#4 : RegNo) ≠ 0#4 ∧
    decodeTuple (assemble (.sys32 .read none (some .wide) 15 0 14 7 4 none)) = .ok (.mrc 14 14) ∧
    decodeTuple (assemble (.sys32 .write none none 15 0 0 7 4 (some 0))) = .ok (.mcr 14 0) ∧
    decodeTuple (assemble (.sys64 .read none none 15 0 14 0 7)) = .ok (.mrrc 14 14 0) ∧
    decodeTuple (assemble (.sys64 .write none none 15 0 14 14 7)) = .ok (.mcrr 14 14 14) ∧
    decodeTuple (assemble (.sys64 .write (some 0) none 15 0 14 0 7)) = .ok (.mcrr 0 14 0) := by decide

/-- A ready access at each row of R160: EL1 and EL2 unbanked and banked, EL3 with either value of SCR.NS (MrcReadsTheLowWord,
McrWritesTheLowWord, MrrcReadsBothWords, McrrWritesBothWords, WrittenWordsReadBack, LowWordWriteThenWideRead,
ReadsRepeatAndWritesAreIdempotent, AArch64ViewIsTheSameStorage). -/
theorem test_witness_ready :
    base.AccessReady .par ∧ (withCtx fun c => { c with el := .el2 }).AccessReady .par ∧
    (bankedBase id).AccessReady .parNs ∧ (bankedBase fun c => { c with el := .el2 }).AccessReady .parNs ∧
    (bankedBase fun c => { c with el := .el3 }).AccessReady .parS ∧
    (bankedBase fun c => { c with el := .el3, scrNs := 1 }).AccessReady .parNs := by
  simp only [State.AccessReady]
  refine ⟨?_, ?_, ?_, ?_, ?_, ?_⟩ <;> exact ⟨by decide, by decide, by decide, by decide, by decide⟩

/-- The same statements, every hypothesis at once, with the register numbers at the ends of the admitted range. -/
theorem test_witness_registers :
    base.AccessReady .par ∧ (0#4 : RegNo) ≠ 15#4 ∧ (14#4 : RegNo) ≠ 15#4 ∧ (14#4 : RegNo) ≠ 0#4 :=
  ⟨test_witness_ready.1, by decide, by decide, by decide⟩

/-- AccessesAreTheSourcePseudocode: a context that proceeds, and one that traps. -/
theorem test_witness_pseudocode : base.ContextOk ∧ hypTrapped.ContextOk := by decide

/-- FailedConditionHasNoEffectOrIsRefused: a failed condition that would proceed, and one each that would be UNDEFINED, trap to an AArch64
EL2, and take the Hyp trap. -/
theorem test_witness_failed_condition :
    (failed base).ContextOk ∧ (failed base).ctx.condPassed = false ∧ (failed base).AccessProceeds ∧
    (failed atEL0).ContextOk ∧ (failed atEL0).AccessUndefined ∧
    (failed a64Trapped).ContextOk ∧ (failed a64Trapped).AccessTrapsToA64 ∧
    (failed hypTrapped).ContextOk ∧ (failed hypTrapped).AccessTrapsToHyp :=
  ⟨by decide, by decide, by decide, by decide, by decide, by decide, by decide, by decide, by decide⟩

/-- UndefinedForExactlyTwoCauses, TrapsToAArch64EL2ExactlyUnderT7, TakesHypTrapExactlyUnderT7: both sides are met. -/
theorem test_witness_faults :
    ((withCtx fun c => { c with el := .el0 }).ContextOk ∧ (withCtx fun c => { c with el := .el0 }).ctx.condPassed = true) ∧
    (a64Trapped.ContextOk ∧ a64Trapped.ctx.condPassed = true ∧ a64Trapped.cfg.parPresent = true ∧ a64Trapped.AccessTrapsToA64) ∧
    (hypTrapped.ContextOk ∧ hypTrapped.ctx.condPassed = true ∧ hypTrapped.cfg.parPresent = true ∧ hypTrapped.AccessTrapsToHyp) := by
  decide

/-- FaultsHaveOneOfThreeReasons: one fault of each kind. -/
theorem test_witness_three_faults :
    exec (.mrc 14 0) (withCtx fun c => { c with el := .el0 }) = .fault .undefined ∧
    exec (.mcrr 14 0 1) a64Trapped = .fault (.a64SysTrap .el2 4) ∧ exec (.mcr 14 0) hypTrapped = .fault (.hypTrap 3) :=
  ⟨rfl, rfl, rfl⟩

/-- AccessesAtEL2AndEL3AreNeverTrapped, at both levels with both T7 bits set; NoAccessCompletesAtEL0. -/
theorem test_witness_levels :
    (∀ s ∈ [withCtx fun c => { c with el := .el2, hstrT7 := 1, hstrEl2T7 := 1 }], s.ctx.el = .el2 ∧ s.cfg.parPresent = true) ∧
    (∀ s ∈ [bankedBase fun c => { c with el := .el3, hstrT7 := 1 }], s.ctx.el = .el3 ∧ s.cfg.parPresent = true) ∧
    (withCtx fun c => { c with el := .el0 }).ctx.el = .el0 := by decide

/-- UnsynchronisedAccessIsRefused. -/
theorem test_witness_unsynchronised :
    outstanding.ContextOk ∧ outstanding.AccessProceeds ∧ outstanding.ctx.condPassed = true ∧ outstanding.Reaches .par ∧
    outstanding.cfg.syncRequired = true ∧ outstanding.unsynced.get .par = true := by decide

/-- IllFormedContextIsRefused: W1, W2 and W3 broken in turn. -/
theorem test_witness_ill_formed_context :
    ¬ (withCtx fun c => { c with el := .el3 }).ContextOk ∧
    ¬ ({ withCtx (fun c => { c with el := .el2 }) with cfg := { base.cfg with haveEL2 := false } } : State).ContextOk ∧
    ¬ ({ withCtx (fun c => { c with el2Enabled := true }) with cfg := { base.cfg with haveEL2 := false } } : State).ContextOk := by
  decide

/-- ReadsChangeOnlyTheirDestinations, WritesChangeOnlyTheInstanceReached, ThirtyTwoBitAccessesKeepTheUpperWord: each instruction answers a next state below EL3, and the access reaches an instance. -/
theorem test_witness_frames :
    (∃ u, exec (.mrc 14 3) base = .next u) ∧ (∃ u, exec (.mrrc 14 3 4) base = .next u) ∧
    (∃ u, exec (.mcr 14 3) base = .next u) ∧ (∃ u, exec (.mcrr 14 3 4) base = .next u) ∧ base.ctx.el ≠ .el3 ∧
    base.ctx.condPassed = true ∧ base.Reaches .par ∧ ¬ base.Reaches .parNs :=
  ⟨⟨_, rfl⟩, ⟨_, rfl⟩, ⟨_, rfl⟩, ⟨_, rfl⟩, by decide, by decide, by decide, by decide⟩

/-- NoInstructionBelowEL3ChangesTheSecureInstance, SecureInstanceIsInvisibleBelowEL3, where PAR_S exists: MCR completes at EL1, writes the
Non-secure instance and leaves the Secure one as it was. -/
theorem test_witness_below_EL3 :
    (bankedBase id).ctx.el ≠ .el3 ∧ InstPresent (bankedBase id).cfg .parS ∧
    ∃ t, exec (.mcr 14 0) (bankedBase id) = .next t ∧ t.par.parNs = 0x55555555DEADBEEF#64 ∧ t.par.parS = 0#64 :=
  ⟨by decide, by decide, _, rfl, by decide, by decide⟩

/-- StoredValuesDoNotAffectTheMachine: two states that differ in PAR and in a register, and take a step. -/
theorem test_witness_same_up_to_values :
    (running (.a32 0xEE173F14#32)).eraseValues = (((running (.a32 0xEE173F14#32)).setPAR .par 1).setReg 3 7).eraseValues ∧
    running (.a32 0xEE173F14#32) ≠ ((running (.a32 0xEE173F14#32)).setPAR .par 1).setReg 3 7 ∧
    ∃ t, step (running (.a32 0xEE173F14#32)) = .next t :=
  ⟨by decide, by decide, _, rfl⟩

/-- AbsentInstancesNeverChange: a step completes where PAR_S does not exist. -/
theorem test_witness_absent :
    (∃ t, step (running (.a32 0xEE170F14#32)) = .next t) ∧ ¬ InstPresent (running (.a32 0xEE170F14#32)).cfg .parS :=
  ⟨⟨_, rfl⟩, by decide⟩

/-- ProceedingAccessReachesOneExistingInstance. -/
theorem test_witness_proceeding : base.ContextOk ∧ base.AccessProceeds ∧ (bankedBase id).ContextOk ∧ (bankedBase id).AccessProceeds := by
  decide

/-- S32ValueBits (a page, and a Supersection with 36 address bits), F32ValueBits, S64ValueBits, F64ValueBits, SoftwareRecoversTheResult,
WriteBackChangesOneInstance: the event completes for a result of each format. -/
theorem test_witness_write_back :
    (∃ t, execATResult .par (.s32 a1) base = .next t) ∧
    (∃ t, execATResult .par (.s32 a7) { base with cfg := { base.cfg with paSize := 36 } } = .next t) ∧
    (∃ t, execATResult .par (.f32 { fs5 := 1, fs := 0b01100 }) base = .next t) ∧
    (∃ t, execATResult .par (.s64 c1) base = .next t) ∧
    (∃ t, execATResult .par (.f64 { fstage := 1, s2wlk := 1, fst := 0b000111 }) base = .next t) ∧
    32 ≤ base.cfg.paSize ∧ a1.ss = 0#1 ∧ a7.ss = 1#1 ∧ a1.sh = 1#1 ∧ a1.secureRegime = true ∧ c1.secureRegime = true :=
  ⟨⟨_, rfl⟩, ⟨_, rfl⟩, ⟨_, rfl⟩, ⟨_, rfl⟩, ⟨_, rfl⟩, by decide⟩

/-- WriteBackCompletesExactlyOnPermittedResults, WriteBackNeedsContextSyncBeforeAccess: a permitted result on an instance that exists, a
well-formed instruction and a ready access, with SyncRequired true and false. -/
theorem test_witness_permitted :
    PermittedResult base.cfg (.s32 a1) ∧ (Instr.mrrc 14 3 4).wellFormed = true ∧ InstPresent base.cfg .par ∧ base.ContextOk ∧ base.AccessReady .par ∧
    base.cfg.syncRequired = true ∧
    ({ base with cfg := { base.cfg with syncRequired := false } } : State).AccessReady .par :=
  ⟨by simp [PermittedResult, a1], by decide, by decide, by decide, by decide, by decide, by decide⟩

/-- LowWordTellsTheFormat: two values with one low word (vector K6). -/
theorem test_witness_low_word :
    (0xFF00008012345980#64).extractLsb' 0 32 = (0x12345980#64).extractLsb' 0 32 ∧ formatOf 0x12345980#64 = .s64 := by decide

/-- ContextSyncClearsEveryFlag. -/
theorem test_witness_context_sync : outstanding.ContextOk := by decide

/-- StepRunsTheDecodedInstruction, for a word, a halfword pair and a tuple. -/
theorem test_witness_step_decoded :
    (∃ e, (running (.a32 0xEC543F07#32)).program = e :: [] ∧ e.item = .a32 0xEC543F07#32 ∧
      decodeA32 0xEC543F07#32 = .ok (.mrrc 14 3 4)) ∧
    (∃ e, (running (.t32 0xEC54#16 0x3F07#16)).program = e :: [] ∧ e.item = .t32 0xEC54#16 0x3F07#16 ∧
      decodeT32 0xEC54#16 0x3F07#16 = .ok (.mrrc 14 3 4)) ∧
    (∃ e, (running (.tuple (tupleOf (.mcr 0 1)))).program = e :: [] ∧ e.item = .tuple (tupleOf (.mcr 0 1)) ∧
      decodeTuple (tupleOf (.mcr 0 1)) = .ok (.mcr 0 1)) :=
  ⟨⟨_, rfl, rfl, by decide⟩, ⟨_, rfl, rfl, by decide⟩, ⟨_, rfl, rfl, by decide⟩⟩

/-- StepRunsTheEvents. -/
theorem test_witness_step_events :
    (∃ e, (running (.atResult .par (.s64 c1))).program = e :: [] ∧ e.item = .atResult .par (.s64 c1)) ∧
    (∃ e, (running .contextSync).program = e :: [] ∧ e.item = .contextSync) :=
  ⟨⟨_, rfl, rfl⟩, ⟨_, rfl, rfl⟩⟩

/-- StepRefusesWhatItCannotRun: no step left, and a word that does not decode. -/
theorem test_witness_step_refused :
    base.program = [] ∧
    (∃ e, (running (.a32 0#32)).program = e :: [] ∧ e.item = .a32 0#32 ∧ decodeA32 0#32 = .error .notAnAccess) :=
  ⟨rfl, ⟨_, rfl, rfl, by decide⟩⟩

/-- StepKeepsTheInvariant, StepKeepsConfigurationAndMovesOn, RegisterFifteenIsNeverWritten: a state that meets the invariant takes a step. -/
theorem test_witness_invariant :
    (running (.a32 0xEE173F14#32)).Inv ∧ ∃ t, step (running (.a32 0xEE173F14#32)) = .next t :=
  ⟨⟨by decide, by decide, fun inst => by cases inst <;> decide⟩, ⟨_, rfl⟩⟩

/-- OnlyEventsChangeSynchronisation: a step of each event changes a flag. -/
theorem test_witness_synchronisation :
    (∃ t, step (running (.atResult .par (.s64 c1))) = .next t ∧ t.unsynced ≠ base.unsynced) ∧
    (∃ t, step { outstanding with program := [{ ctx := base.ctx, item := .contextSync }] } = .next t ∧
      t.unsynced ≠ outstanding.unsynced) :=
  ⟨⟨_, rfl, by decide⟩, ⟨_, rfl, by decide⟩⟩

end Sys2Proof.Tests
end

section
/-! SUPPORT. What the instructions keep of the state, what the write-back does to the synchronisation flags, and the invariant of a
run along each of them. -/

namespace Sys2Proof.Machine

variable {s s' : State}

/-! ## What an instruction keeps -/

/-- An access keeps every part of the state that its move keeps. -/
theorem registerAccess_keeps {β : Type} (f : State → β) {ok : Bool} {code : Nat} {act : Inst → State → State}
    (hact : ∀ inst, f (act inst s) = f s) (h : registerAccess ok code act s = .next s') : f s' = f s := by
  obtain ⟨-, -, -, ⟨-, rfl⟩ | ⟨-, rfl⟩⟩ := registerAccess_cases h
  · rfl
  · exact hact _

/-- An instruction keeps every part of the state that depends neither on a general register nor on an instance of PAR: these are
all that the four moves write (R120, R121, R130, R131). -/
theorem exec_keeps {β : Type} (f : State → β) (hreg : ∀ u t v, f (State.setReg u t v) = f u)
    (hpar : ∀ u inst v, f (State.setPAR u inst v) = f u) {i : Instr} (h : exec i s = .next s') : f s' = f s := by
  cases i with
  | mrc _ t => exact registerAccess_keeps (act := moveMRC t) f (fun _ => hreg _ _ _) h
  | mcr _ t => exact registerAccess_keeps (act := moveMCR t) f (fun _ => hpar _ _ _) h
  | mrrc _ t t2 => exact registerAccess_keeps (act := moveMRRC t t2) f (fun _ => (hreg _ _ _).trans (hreg _ _ _)) h
  | mcrr _ t t2 => exact registerAccess_keeps (act := moveMCRR t t2) f (fun _ => hpar _ _ _) h

theorem exec_cfg {i : Instr} (h : exec i s = .next s') : s'.cfg = s.cfg :=
  exec_keeps State.cfg (fun _ _ _ => rfl) (fun _ _ _ => rfl) h

theorem exec_ctx {i : Instr} (h : exec i s = .next s') : s'.ctx = s.ctx :=
  exec_keeps State.ctx (fun _ _ _ => rfl) (fun _ _ _ => rfl) h

theorem exec_unsynced {i : Instr} (h : exec i s = .next s') : s'.unsynced = s.unsynced :=
  exec_keeps State.unsynced (fun _ _ _ => rfl) (fun _ _ _ => rfl) h

/-- An instruction that answers a next state ran under a well-formed context (R15). -/
theorem exec_contextOk {i : Instr} (h : exec i s = .next s') : s.ContextOk := by
  obtain ⟨ok, act, -, he⟩ := exec_eq_registerAccess i
  rw [he] at h
  exact (registerAccess_cases h).2.1

/-! ## What the write-back does to the flags -/

@[simp] theorem writeBack_unsynced (inst : Inst) (res : ATResult) :
    (writeBack inst res s).unsynced = s.unsynced.set inst true := rfl

/-! ## The invariant along each operation -/

/-- The invariant reads only the configuration, the context and the synchronisation flags. -/
theorem State.Inv.congr (hs : s.Inv) (hcfg : s'.cfg = s.cfg) (hctx : s'.ctx = s.ctx) (huns : s'.unsynced = s.unsynced) :
    s'.Inv where
  paSize := hcfg ▸ hs.paSize
  context := by rw [State.ContextOk, hcfg, hctx]; exact hs.context
  outstanding := by rw [hcfg, huns]; exact hs.outstanding

/-- Moving to the next list element keeps the invariant when the context it supplies is well formed. -/
theorem State.Inv.after_begin (hs : s.Inv) {ctx : Ctx} {rest : List Entry} (hc : (s.begin ctx rest).ContextOk) :
    (s.begin ctx rest).Inv :=
  ⟨hs.paSize, hc, hs.outstanding⟩

theorem State.Inv.after_exec (hs : s.Inv) {i : Instr} (h : exec i s = .next s') : s'.Inv :=
  hs.congr (exec_cfg h) (exec_ctx h) (exec_unsynced h)

/-- A write-back to an instance that exists keeps the invariant: the flag it sets is that instance's (R110). -/
theorem State.Inv.after_writeBack (hs : s.Inv) {inst : Inst} (res : ATResult) (he : instExists s.cfg inst = true) :
    (writeBack inst res s).Inv where
  paSize := hs.paSize
  context := hs.context
  outstanding j hj := by
    rw [writeBack_unsynced, Banks.get_set] at hj
    split at hj
    next hji =>
      subst hji
      exact (instExists_iff _ _).1 he
    next => exact hs.outstanding j hj

/-- The Context synchronization event keeps the invariant: it leaves no write-back outstanding (R83). -/
theorem State.Inv.after_syncAll (hs : s.Inv) : s.syncAll.Inv where
  paSize := hs.paSize
  context := hs.context
  outstanding j hj := by simp at hj

/-- Settles O50: the head of the program runs under its own context, which each of the three kinds of step requires to be well formed,
and each of them keeps the invariant from there. -/
theorem stepKeepsTheInvariant : Obligations.StepKeepsTheInvariant := by
  intro s t hs h
  obtain ⟨e, rest, -, ⟨i, -, hi⟩ | ⟨inst, res, -, ha⟩ | ⟨-, hc⟩⟩ := step_next h
  · exact (hs.after_begin (exec_contextOk hi)).after_exec hi
  · obtain ⟨hok, hex, -, rfl⟩ := execATResult_next ha
    exact (hs.after_begin hok).after_writeBack res hex
  · obtain ⟨hok, rfl⟩ := execContextSync_next hc
    exact (hs.after_begin hok).after_syncAll

end Sys2Proof.Machine
end

section
/-! SUPPORT. The step, one equation for each kind of program entry; an instruction as the direct access it is, what it writes, and what an
ill-formed context makes of it and of the events. -/

namespace Sys2Proof.Machine

variable {s s' : State}

/-! ## The step, entry by entry (R17) -/

theorem step_of_nil (hp : s.program = []) : step s = .refused .endOfProgram := by
  rw [step, hp]

theorem step_of_instr {e : Entry} {rest : List Entry} {i : Instr} (hp : s.program = e :: rest)
    (hi : fetchItem e.item = .instr i) : step s = exec i (s.begin e.ctx rest) := by
  simp only [step, hp, hi]

theorem step_of_atResult {e : Entry} {rest : List Entry} {inst : Inst} {res : ATResult} (hp : s.program = e :: rest)
    (hi : fetchItem e.item = .atResult inst res) : step s = execATResult inst res (s.begin e.ctx rest) := by
  simp only [step, hp, hi]

theorem step_of_contextSync {e : Entry} {rest : List Entry} (hp : s.program = e :: rest)
    (hi : fetchItem e.item = .contextSync) : step s = execContextSync (s.begin e.ctx rest) := by
  simp only [step, hp, hi]

theorem step_of_refuse {e : Entry} {rest : List Entry} {r : Refusal} (hp : s.program = e :: rest)
    (hi : fetchItem e.item = .refuse r) : step s = .refused r := by
  simp only [step, hp, hi]

/-- Decoding answers no write-back (R103). -/
theorem fetchedOf_ne_atResult {d : Except DecodeError Instr} {inst : Inst} {res : ATResult} :
    fetchedOf d ≠ .atResult inst res := by
  cases d <;> simp [fetchedOf]

/-- Decoding answers no Context synchronization event (R103). -/
theorem fetchedOf_ne_contextSync {d : Except DecodeError Instr} : fetchedOf d ≠ .contextSync := by
  cases d <;> simp [fetchedOf]

/-- Only the write-back itself is fetched as a write-back. -/
theorem fetchItem_eq_atResult {it : Item} {inst : Inst} {res : ATResult} (h : fetchItem it = .atResult inst res) :
    it = .atResult inst res := by
  cases it with
  | a32 w => exact absurd h fetchedOf_ne_atResult
  | t32 hw1 hw2 => exact absurd h fetchedOf_ne_atResult
  | tuple t => exact absurd h fetchedOf_ne_atResult
  | atResult inst' res' => simpa [fetchItem] using h
  | contextSync => cases h

/-- Only the Context synchronization event itself is fetched as one. -/
theorem fetchItem_eq_contextSync {it : Item} (h : fetchItem it = .contextSync) : it = .contextSync := by
  cases it with
  | a32 w => exact absurd h fetchedOf_ne_contextSync
  | t32 hw1 hw2 => exact absurd h fetchedOf_ne_contextSync
  | tuple t => exact absurd h fetchedOf_ne_contextSync
  | atResult inst' res' => cases h
  | contextSync => rfl

/-! ## The instructions as direct accesses -/

theorem regNoOk_iff {t : RegNo} : regNoOk t = true ↔ t ≠ 15#4 := by simp [regNoOk]

/-- A well-formed instruction is a direct access with its own code: its register numbers are admitted (R100). -/
theorem exec_eq_directAccess {i : Instr} (hw : i.wellFormed = true) :
    ∃ act, ∀ s, exec i s = directAccess (accessCode i) act s := by
  obtain ⟨ok, act, hok, he⟩ := exec_eq_registerAccess i
  exact ⟨act, fun s => (he s).trans (registerAccess_ok (hok hw))⟩

/-- An instruction that answers a next state passed the access check (R146). -/
theorem exec_accessProceeds {i : Instr} (h : exec i s = .next s') : s.AccessProceeds := by
  obtain ⟨ok, act, -, he⟩ := exec_eq_registerAccess i
  rw [he] at h
  obtain ⟨-, -, hp, -⟩ := registerAccess_cases h
  exact hp

/-! ## An ill-formed context -/

/-- The defect of a context is one of the three of R15. -/
theorem contextDefect_mem {cfg : Config} {ctx : Ctx} {r : Refusal} (h : contextDefect cfg ctx = some r) :
    r ∈ [Refusal.contextW1, Refusal.contextW2, Refusal.contextW3] := by
  unfold contextDefect at h
  split_ifs at h <;> cases h <;> simp

theorem exists_contextDefect (h : ¬ s.ContextOk) :
    ∃ r ∈ [Refusal.contextW1, Refusal.contextW2, Refusal.contextW3], contextDefect s.cfg s.ctx = some r := by
  cases hd : contextDefect s.cfg s.ctx with
  | none => exact absurd ((contextDefect_none_iff s).1 hd) h
  | some r => exact ⟨r, contextDefect_mem hd, rfl⟩

theorem directAccess_of_contextDefect {code : Nat} {act : Inst → State → State} {r : Refusal}
    (h : contextDefect s.cfg s.ctx = some r) : directAccess code act s = .refused r := by
  simp only [directAccess, h]

theorem execATResult_of_contextDefect {inst : Inst} {res : ATResult} {r : Refusal}
    (h : contextDefect s.cfg s.ctx = some r) : execATResult inst res s = .refused r := by
  simp only [execATResult, eventDefect, h]

theorem execContextSync_of_contextDefect {r : Refusal} (h : contextDefect s.cfg s.ctx = some r) :
    execContextSync s = .refused r := by
  simp only [execContextSync, h]

/-! ## What an instruction writes -/

/-- An access keeps every part of the state that its move on the selected instance keeps. -/
theorem registerAccess_keeps_of_selected {β : Type} (f : State → β) {ok : Bool} {code : Nat} {act : Inst → State → State}
    (hact : f (act (selectPAR s.cfg s.ctx) s) = f s) (h : registerAccess ok code act s = .next s') : f s' = f s := by
  obtain ⟨-, -, -, ⟨-, rfl⟩ | ⟨-, rfl⟩⟩ := registerAccess_cases h
  · rfl
  · exact hact

/-- An instruction changes no instance but the one it selects (R12). -/
theorem exec_par_get_of_ne {i : Instr} {j : Inst} (h : exec i s = .next s') (hj : j ≠ selectPAR s.cfg s.ctx) :
    s'.par.get j = s.par.get j := by
  cases i with
  | mrc _ t => exact registerAccess_keeps_of_selected (act := moveMRC t) (·.par.get j) rfl h
  | mcr _ t => exact registerAccess_keeps_of_selected (act := moveMCR t) (·.par.get j) (by simp [moveMCR, hj]) h
  | mrrc _ t t2 => exact registerAccess_keeps_of_selected (act := moveMRRC t t2) (·.par.get j) rfl h
  | mcrr _ t t2 => exact registerAccess_keeps_of_selected (act := moveMCRR t t2) (·.par.get j) (by simp [moveMCRR, hj]) h

/-- An instruction never writes an instance that does not exist: the one it selects exists (R11, R12). -/
theorem exec_par_get_of_absent {i : Instr} {j : Inst} (h : exec i s = .next s') (hj : ¬ InstPresent s.cfg j) :
    s'.par.get j = s.par.get j := by
  refine exec_par_get_of_ne h fun hsel => hj ?_
  rw [hsel]
  exact (instExists_iff _ _).1 (instExists_selectPAR (exec_contextOk h) (exec_accessProceeds h))

/-- An instruction never writes general register 15: no admitted operand names it (R100). -/
theorem exec_reg_fifteen {i : Instr} (h : exec i s = .next s') : s'.reg 15#4 = s.reg 15#4 := by
  cases i with
  | mrc _ t =>
    have ht : t ≠ 15#4 := regNoOk_iff.1 (registerAccess_cases h).1
    exact registerAccess_keeps (act := moveMRC t) (State.reg · 15#4) (fun _ => by simp [moveMRC, ht.symm]) h
  | mcr _ t => exact registerAccess_keeps (act := moveMCR t) (State.reg · 15#4) (fun _ => rfl) h
  | mrrc _ t t2 =>
    have hok : twoDestOk t t2 = true := (registerAccess_cases h).1
    simp only [twoDestOk, Bool.and_eq_true, regNoOk_iff] at hok
    obtain ⟨⟨ht, ht2⟩, -⟩ := hok
    exact registerAccess_keeps (act := moveMRRC t t2) (State.reg · 15#4)
      (fun _ => by simp [moveMRRC, ht.symm, ht2.symm]) h
  | mcrr _ t t2 => exact registerAccess_keeps (act := moveMCRR t t2) (State.reg · 15#4) (fun _ => rfl) h

@[simp] theorem writeBack_reg (inst : Inst) (res : ATResult) (t : RegNo) : (writeBack inst res s).reg t = s.reg t := rfl

@[simp] theorem writeBack_par (inst : Inst) (res : ATResult) :
    (writeBack inst res s).par = s.par.set inst (valueOf s.cfg.paSize (freeBits s.draws) res) := rfl

end Sys2Proof.Machine
end

section
/-! SUPPORT. The stored values, PAR's instances and the general registers, steer nothing: erasing them before a step changes nothing but
the values carried along (R20). -/

namespace Sys2Proof.Machine

variable {s : State}

/-! ## Erasing the stored values -/

@[simp] theorem State.eraseValues_cfg (s : State) : s.eraseValues.cfg = s.cfg := rfl
@[simp] theorem State.eraseValues_ctx (s : State) : s.eraseValues.ctx = s.ctx := rfl
@[simp] theorem State.eraseValues_unsynced (s : State) : s.eraseValues.unsynced = s.unsynced := rfl
@[simp] theorem State.eraseValues_program (s : State) : s.eraseValues.program = s.program := rfl
@[simp] theorem State.eraseValues_eraseValues (s : State) : s.eraseValues.eraseValues = s.eraseValues := rfl
@[simp] theorem State.eraseValues_setReg (s : State) (t : RegNo) (v : Word) :
    (s.setReg t v).eraseValues = s.eraseValues := rfl
@[simp] theorem State.eraseValues_setPAR (s : State) (inst : Inst) (v : DWord) :
    (s.setPAR inst v).eraseValues = s.eraseValues := rfl
theorem State.eraseValues_begin (s : State) (ctx : Ctx) (rest : List Entry) :
    s.eraseValues.begin ctx rest = (s.begin ctx rest).eraseValues := rfl

/-! ## The operations on an erased state -/

/-- A direct access whose move changes stored values only does not depend on them: its premises, its check and its synchronisation
premise read the configuration, the context and the flags. -/
theorem directAccess_eraseValues {code : Nat} {act : Inst → State → State}
    (hact : ∀ inst u, (act inst u).eraseValues = u.eraseValues) :
    mapNext State.eraseValues (directAccess code act s.eraseValues) =
      mapNext State.eraseValues (directAccess code act s) := by
  unfold directAccess
  rw [State.eraseValues_cfg, State.eraseValues_ctx, State.eraseValues_unsynced]
  cases contextDefect s.cfg s.ctx with
  | some r => rfl
  | none =>
    cases gate s.ctx.condPassed (accessCheck s.cfg s.ctx code) with
    | fault f => rfl
    | refuse => rfl
    | noEffect => rfl
    | access =>
      dsimp only
      split_ifs
      · rfl
      · simp [mapNext, hact]

theorem registerAccess_eraseValues {ok : Bool} {code : Nat} {act : Inst → State → State}
    (hact : ∀ inst u, (act inst u).eraseValues = u.eraseValues) :
    mapNext State.eraseValues (registerAccess ok code act s.eraseValues) =
      mapNext State.eraseValues (registerAccess ok code act s) := by
  cases ok with
  | false => rfl
  | true => exact directAccess_eraseValues hact

/-- No instruction is steered by a stored value. -/
theorem exec_eraseValues (i : Instr) (s : State) :
    mapNext State.eraseValues (exec i s.eraseValues) = mapNext State.eraseValues (exec i s) := by
  cases i with
  | mrc _ t => exact registerAccess_eraseValues fun _ _ => by simp [moveMRC]
  | mcr _ t => exact registerAccess_eraseValues fun _ _ => by simp [moveMCR]
  | mrrc _ t t2 => exact registerAccess_eraseValues fun _ _ => by simp [moveMRRC]
  | mcrr _ t t2 => exact registerAccess_eraseValues fun _ _ => by simp [moveMCRR]

/-- The write-back is not steered by a stored value. -/
theorem execATResult_eraseValues (inst : Inst) (res : ATResult) (s : State) :
    mapNext State.eraseValues (execATResult inst res s.eraseValues) =
      mapNext State.eraseValues (execATResult inst res s) := by
  simp only [execATResult, State.eraseValues_cfg, State.eraseValues_ctx]
  cases eventDefect s.cfg s.ctx inst res <;> rfl

/-- The Context synchronization event is not steered by a stored value. -/
theorem execContextSync_eraseValues (s : State) :
    mapNext State.eraseValues (execContextSync s.eraseValues) = mapNext State.eraseValues (execContextSync s) := by
  simp only [execContextSync, State.eraseValues_cfg, State.eraseValues_ctx]
  cases contextDefect s.cfg s.ctx <;> rfl

/-- Erasing the stored values before a step changes nothing but the values carried along. -/
theorem step_eraseValues (s : State) :
    mapNext State.eraseValues (step s.eraseValues) = mapNext State.eraseValues (step s) := by
  cases hp : s.program with
  | nil => rw [step_of_nil hp, step_of_nil (s.eraseValues_program.trans hp)]
  | cons e rest =>
    have hp' : s.eraseValues.program = e :: rest := s.eraseValues_program.trans hp
    cases hi : fetchItem e.item with
    | instr i =>
      rw [step_of_instr hp hi, step_of_instr hp' hi, State.eraseValues_begin, exec_eraseValues]
    | atResult inst res =>
      rw [step_of_atResult hp hi, step_of_atResult hp' hi, State.eraseValues_begin, execATResult_eraseValues]
    | contextSync =>
      rw [step_of_contextSync hp hi, step_of_contextSync hp' hi, State.eraseValues_begin, execContextSync_eraseValues]
    | refuse r => rw [step_of_refuse hp hi, step_of_refuse hp' hi]

/-- Settles O30: both steps are, up to stored values, the step of the one erased state. -/
theorem storedValuesDoNotAffectTheMachine : Obligations.StoredValuesDoNotAffectTheMachine := by
  intro s s' h
  rw [← step_eraseValues s, h, step_eraseValues s']

/-- The write-back writes one value whatever was stored: the other stored values are carried along. -/
theorem writeBack_withValues (s : State) (p : Banks DWord) (g : Vector Word 16) (inst : Inst) (res : ATResult) :
    writeBack inst res { s with par := p, regs := g } =
      { writeBack inst res s with par := p.set inst ((writeBack inst res s).par.get inst), regs := g } := by
  simp [writeBack, State.setPAR, State.markUnsynced, State.drawn]

/-- Settles O57: each event's precondition and its effect read the configuration, the context and the count of draws only. -/
theorem eventsReadNoStoredValue : Obligations.EventsReadNoStoredValue := by
  intro s p g
  constructor
  · intro inst res
    simp only [execATResult]
    cases eventDefect s.cfg s.ctx inst res with
    | some r => rfl
    | none => exact congrArg Host.Outcome.next (writeBack_withValues s p g inst res)
  · simp only [execContextSync]
    cases contextDefect s.cfg s.ctx <;> rfl

end Sys2Proof.Machine
end

section
/-! SUPPORT. The statements about the four accesses: a failed condition, an ill-formed context, the 32-bit forms, the instance reached and
the AArch64 view. -/

namespace Sys2Proof.Machine

variable {s s' : State}

/-- Each of the three exceptional conditions stops the access check (R141 to R143). -/
theorem accessCheck_stop_of (code : Nat) (h : s.AccessUndefined ∨ s.AccessTrapsToA64 ∨ s.AccessTrapsToHyp) :
    ∃ f, accessCheck s.cfg s.ctx code = .stop f := by
  obtain hu | ha | hh := h
  · exact ⟨_, (accessCheck_undefined_iff s code).2 hu⟩
  · exact ⟨_, (accessCheck_a64_iff s code).2 ha⟩
  · exact ⟨_, (accessCheck_hyp_iff s code).2 hh⟩

/-- Settles O15: the instruction is a direct access, whose check either proceeds or stops. -/
theorem failedConditionHasNoEffectOrIsRefused : Obligations.FailedConditionHasNoEffectOrIsRefused := by
  intro i s hw hc hcp
  obtain ⟨act, he⟩ := exec_eq_directAccess hw
  rw [he]
  constructor
  · intro hp
    exact directAccess_condFailed hc hp hcp
  · intro hstop
    obtain ⟨f, hf⟩ := accessCheck_stop_of (accessCode i) hstop
    rw [directAccess_stop hc hf, hcp]
    rfl

/-- Settles O23: the defect of the context is the first thing a direct access and each event test. -/
theorem illFormedContextIsRefused : Obligations.IllFormedContextIsRefused := by
  intro s hc
  obtain ⟨r, hmem, hr⟩ := exists_contextDefect hc
  refine ⟨r, hmem, fun i hw => ?_, fun inst res => execATResult_of_contextDefect hr, execContextSync_of_contextDefect hr⟩
  obtain ⟨act, he⟩ := exec_eq_directAccess hw
  rw [he, directAccess_of_contextDefect hr]

/-- MRC leaves PAR as it was and reads the low word of the instance reached (R13, R120). -/
theorem exec_mrc_next {c : BitVec 4} {t : RegNo} (h : exec (.mrc c t) s = .next s') :
    s'.par = s.par ∧ ∀ inst, s.ctx.condPassed = true → s.Reaches inst → s'.reg t = lowWord (s.par.get inst) := by
  obtain ⟨-, -, -, ⟨hcp, rfl⟩ | ⟨-, rfl⟩⟩ := registerAccess_cases (act := moveMRC t) h
  · exact ⟨rfl, fun inst hcp' => by simp [hcp] at hcp'⟩
  · refine ⟨rfl, fun inst _ hr => ?_⟩
    simp [moveMRC, selectPAR_eq_of_reaches hr]

/-- MCR leaves the high word of every instance as it was and writes the low word of the instance reached (R13, R121). -/
theorem exec_mcr_next {c : BitVec 4} {t : RegNo} (h : exec (.mcr c t) s = .next s') (inst : Inst) :
    highWord (s'.par.get inst) = highWord (s.par.get inst) ∧
      (s.ctx.condPassed = true → s.Reaches inst → lowWord (s'.par.get inst) = s.reg t) := by
  obtain ⟨-, -, -, ⟨hcp, rfl⟩ | ⟨-, rfl⟩⟩ := registerAccess_cases (act := moveMCR t) h
  · exact ⟨rfl, fun hcp' => by simp [hcp] at hcp'⟩
  · constructor
    · by_cases hi : inst = selectPAR s.cfg s.ctx <;> simp [moveMCR, hi]
    · intro _ hr
      simp [moveMCR, selectPAR_eq_of_reaches hr]

/-- Settles O26, by what MRC and MCR can each have done. -/
theorem thirtyTwoBitAccessesKeepTheUpperWord : Obligations.ThirtyTwoBitAccessesKeepTheUpperWord := by
  intro s u c t inst
  constructor
  · intro h
    obtain ⟨hpar, hreg⟩ := exec_mrc_next h
    exact ⟨hpar, hreg inst⟩
  · intro h
    exact exec_mcr_next h inst

/-- Settles O27: the instance is the selected one. -/
theorem proceedingAccessReachesOneExistingInstance : Obligations.ProceedingAccessReachesOneExistingInstance := by
  intro s hc hp
  have hel : s.ctx.el ≠ .el0 := fun h0 => hp.1 (.inr h0)
  exact ⟨selectPAR s.cfg s.ctx, reaches_selectPAR hel, (instExists_iff _ _).1 (instExists_selectPAR hc hp),
    fun j hj => (selectPAR_eq_of_reaches hj).symm⟩

/-- The instance of a ready access exists (R11, R12). -/
theorem instExists_of_accessReady {inst : Inst} (h : s.AccessReady inst) : instExists s.cfg inst = true := by
  obtain ⟨hc, hp, -, hr, -⟩ := h
  rw [← selectPAR_eq_of_reaches hr]
  exact instExists_selectPAR hc hp

/-- A ready MCRR writes its two words (R131). -/
theorem exec_mcrr_ready {inst : Inst} {c : BitVec 4} {t t2 : RegNo} (h : s.AccessReady inst) (ht : t ≠ 15#4)
    (ht2 : t2 ≠ 15#4) : exec (.mcrr c t t2) s = .next (s.setPAR inst (joinWords (s.reg t2) (s.reg t))) := by
  have hok : twoSourceOk t t2 = true := by simp [twoSourceOk, regNoOk_iff, ht, ht2]
  exact (registerAccess_ok hok).trans (directAccess_ready h)

/-- Where the unbanked instance exists, the AArch64 view is its value (R14). -/
theorem State.parEl1_of_instExists (h : instExists s.cfg .par = true) : s.parEl1 = some (s.par.get .par) := by
  simp [State.parEl1, h]

/-- Settles O35: MCRR keeps the configuration, so the view is there before and after it. -/
theorem aArch64ViewIsTheSameStorage : Obligations.AArch64ViewIsTheSameStorage := by
  intro s c t t2 hr ht ht2
  have hex := instExists_of_accessReady hr
  refine ⟨State.parEl1_of_instExists hex, _, exec_mcrr_ready hr ht ht2, ?_⟩
  rw [State.parEl1_of_instExists (by simpa using hex)]
  simp [joinWords]

end Sys2Proof.Machine
end

section
/-! SUPPORT. The statements about the step: what it runs, what it refuses, and what it leaves of the absent instances, of register 15 and
of the synchronisation flags. -/

namespace Sys2Proof.Machine

/-- Settles O31: an instruction and a write-back write an existing instance only, and a write-back sets that instance's flag only. -/
theorem absentInstancesNeverChange : Obligations.AbsentInstancesNeverChange := by
  intro s t inst h habs
  obtain ⟨e, rest, -, ⟨i, -, hi⟩ | ⟨inst', res, -, ha⟩ | ⟨-, hc⟩⟩ := step_next h
  · exact ⟨exec_par_get_of_absent (s := s.begin e.ctx rest) hi habs, fun hu => by simpa [exec_unsynced hi] using hu⟩
  · obtain ⟨-, hex, -, rfl⟩ := execATResult_next ha
    have hne : inst ≠ inst' := fun heq => habs (heq ▸ (instExists_iff _ _).1 hex)
    simp [hne]
  · obtain ⟨-, rfl⟩ := execContextSync_next hc
    simp

/-- Settles O53: an instruction does not write register 15, and no event writes a register. -/
theorem registerFifteenIsNeverWritten : Obligations.RegisterFifteenIsNeverWritten := by
  intro s t h
  obtain ⟨e, rest, -, ⟨i, -, hi⟩ | ⟨inst, res, -, ha⟩ | ⟨-, hc⟩⟩ := step_next h
  · exact exec_reg_fifteen (s := s.begin e.ctx rest) hi
  · obtain ⟨-, -, -, rfl⟩ := execATResult_next ha
    simp
  · obtain ⟨-, rfl⟩ := execContextSync_next hc
    simp

/-- Settles O54: an instruction keeps every flag, so the head of the program was an event. -/
theorem onlyEventsChangeSynchronisation : Obligations.OnlyEventsChangeSynchronisation := by
  intro s t h hne
  obtain ⟨e, rest, hp, ⟨i, -, hi⟩ | ⟨inst, res, hf, ha⟩ | ⟨hf, hc⟩⟩ := step_next h
  · exact absurd (exec_unsynced hi) hne
  · obtain ⟨-, -, -, rfl⟩ := execATResult_next ha
    refine ⟨e, rest, hp, .inl ⟨inst, res, fetchItem_eq_atResult hf, ?_, fun j hj => ?_⟩⟩
    · simp
    · simp [hj]
  · obtain ⟨-, rfl⟩ := execContextSync_next hc
    exact ⟨e, rest, hp, .inr ⟨fetchItem_eq_contextSync hf, fun inst => by simp⟩⟩

/-- Settles O47: a word, a halfword pair and a tuple are each fetched as what decoding makes of them. -/
theorem stepRunsTheDecodedInstruction : Obligations.StepRunsTheDecodedInstruction := by
  intro s e rest i hp h
  refine step_of_instr hp ?_
  obtain ⟨w, hitem, hd⟩ | ⟨hw1, hw2, hitem, hd⟩ | ⟨x, hitem, hd⟩ := h <;>
    simp only [hitem, fetchItem, hd, fetchedOf]

/-- Settles O48: an event is fetched as itself. -/
theorem stepRunsTheEvents : Obligations.StepRunsTheEvents := by
  intro s e rest hp
  constructor
  · intro inst res hitem
    exact step_of_atResult hp (by rw [hitem, fetchItem])
  · intro hitem
    exact step_of_contextSync hp (by rw [hitem, fetchItem])

/-- Settles O49: an empty list is no step, and a word is fetched as what decoding makes of it. -/
theorem stepRefusesWhatItCannotRun : Obligations.StepRefusesWhatItCannotRun := by
  intro s
  refine ⟨step_of_nil, fun e rest w why hp hitem hd => step_of_refuse hp ?_⟩
  rw [hitem, fetchItem, hd, fetchedOf]

end Sys2Proof.Machine
end

section
/-! SUPPORT. The statements about reading a result back: its format, and the tables of its fields. -/

namespace Sys2Proof.Machine

/-- Bit F lies in the low word (R19). -/
theorem bitF_eq_lowWord (v : DWord) : bitF v = (lowWord v).extractLsb' 0 1 := by
  simp [bitF, lowWord, BitVec.extractLsb'_extractLsb'_of_le]

/-- Bit LPAE lies in the low word (R19). -/
theorem bitLPAE_eq_lowWord (v : DWord) : bitLPAE v = (lowWord v).extractLsb' 11 1 := by
  simp [bitLPAE, lowWord, BitVec.extractLsb'_extractLsb'_of_le]

/-- Settles O43: the format is told by two bits of the low word. -/
theorem lowWordTellsTheFormat : Obligations.LowWordTellsTheFormat := by
  intro v w h
  have hlow : lowWord v = lowWord w := h
  simp only [formatOf, bitF_eq_lowWord, bitLPAE_eq_lowWord, hlow]

/-- A code without a row has no meaning. -/
theorem statusIn_eq_none {w : Nat} {table : List (StatusRow w)} {code : BitVec w} (ras : Bool)
    (h : code ∉ table.map StatusRow.code) : statusIn table ras code = none := by
  rw [statusIn, Option.map_eq_none_iff, List.find?_eq_none]
  intro r hr hcode
  simp only [Bool.and_eq_true, beq_iff_eq] at hcode
  exact h (List.mem_map.2 ⟨r, hr, hcode.1⟩)

/-- Settles O46: row by row, a code outside the tables having no row to find. -/
theorem faultStatusTablesAreComplete : Obligations.FaultStatusTablesAreComplete := by
  refine ⟨fun ras => ⟨rfl, rfl, rfl, rfl, rfl, rfl, rfl, rfl, rfl, rfl, rfl, rfl, rfl, fun code h => statusIn_eq_none ras h⟩,
    rfl, rfl, rfl, rfl, rfl, rfl,
    fun ras => ⟨rfl, rfl, rfl, rfl, rfl, rfl, rfl, rfl, rfl, rfl, rfl, rfl, rfl, rfl, rfl, rfl, rfl,
      fun code h => statusIn_eq_none ras h⟩,
    rfl, rfl, rfl, rfl, rfl, rfl, ?_, ?_⟩
  · decide
  · decide

/-- Settles O56: every value of each field is looked up in its table. -/
theorem attributeTablesAreComplete : Obligations.AttributeTablesAreComplete := by
  unfold Obligations.AttributeTablesAreComplete
  decide

end Sys2Proof.Machine
end

section
/-! SUPPORT. PAR as storage: what each ready access answers, sequences of accesses, and the Context synchronization event. -/

namespace Sys2Proof.Machine

variable {s : State} {inst : Inst} {c : BitVec 4} {t t2 : RegNo}

/-! ## Writing an instance twice -/

@[simp] theorem Banks.set_set_same {α : Type} (b : Banks α) (inst : Inst) (v w : α) :
    (b.set inst v).set inst w = b.set inst w :=
  Banks.ext_get fun j => by by_cases hj : j = inst <;> simp [hj]

@[simp] theorem State.setPAR_setPAR_same (s : State) (inst : Inst) (v w : DWord) :
    (s.setPAR inst v).setPAR inst w = s.setPAR inst w := by
  simp [State.setPAR]

/-- A second write of the low word finds the high word the first one kept (R13). -/
@[simp] theorem replaceLow_replaceLow (v : DWord) (lo lo' : Word) :
    replaceLow (replaceLow v lo) lo' = replaceLow v lo' := by
  rw [replaceLow, highWord_replaceLow, replaceLow]

/-! ## The accesses that are ready -/

/-- Readiness reads the configuration, the context and the flags, none of which the write of a register touches. -/
theorem accessReady_setReg (h : s.AccessReady inst) (t : RegNo) (v : Word) : (s.setReg t v).AccessReady inst := h

/-- Readiness reads no stored value, so a write of PAR keeps it. -/
theorem accessReady_setPAR (h : s.AccessReady inst) (j : Inst) (v : DWord) : (s.setPAR j v).AccessReady inst := h

/-- A ready MRC reads the low word (R120). -/
theorem exec_mrc_ready (h : s.AccessReady inst) (ht : t ≠ 15#4) :
    exec (.mrc c t) s = .next (s.setReg t (lowWord (s.par.get inst))) :=
  (registerAccess_ok (regNoOk_iff.2 ht)).trans (directAccess_ready h)

/-- A ready MCR writes the low word (R121). -/
theorem exec_mcr_ready (h : s.AccessReady inst) (ht : t ≠ 15#4) :
    exec (.mcr c t) s = .next (s.setPAR inst (replaceLow (s.par.get inst) (s.reg t))) :=
  (registerAccess_ok (regNoOk_iff.2 ht)).trans (directAccess_ready h)

/-- A ready MRRC reads both words (R130). -/
theorem exec_mrrc_ready (h : s.AccessReady inst) (ht : t ≠ 15#4) (ht2 : t2 ≠ 15#4) (hne : t ≠ t2) :
    exec (.mrrc c t t2) s =
      .next ((s.setReg t (lowWord (s.par.get inst))).setReg t2 (highWord (s.par.get inst))) := by
  have hok : twoDestOk t t2 = true := by simp [twoDestOk, regNoOk_iff, ht, ht2, hne]
  exact (registerAccess_ok hok).trans (directAccess_ready h)

/-! ## The Context synchronization event -/

/-- In a well-formed context the event synchronises every instance (R83). -/
theorem execContextSync_ok (h : s.ContextOk) : execContextSync s = .next s.syncAll := by
  rw [execContextSync, (contextDefect_none_iff s).2 h]

/-! ## Reading and writing twice -/

/-- The second of two MRC reads the word the first one read, whatever register the first one wrote. -/
theorem mrc_mrc_agree {a : RegNo} (h : s.AccessReady inst) (ht : t ≠ 15#4) (ha : a ≠ 15#4) :
    ∃ u v, exec (.mrc c t) s = .next u ∧ exec (.mrc c a) u = .next v ∧ v.reg a = u.reg t ∧ v.par = s.par := by
  refine ⟨_, _, exec_mrc_ready h ht, exec_mrc_ready (accessReady_setReg h t _) ha, ?_, rfl⟩
  simp

/-- The second of two MRRC reads the words the first one read, whatever registers the first one wrote. -/
theorem mrrc_mrrc_agree {a b : RegNo} (h : s.AccessReady inst) (ht : t ≠ 15#4) (ht2 : t2 ≠ 15#4) (ha : a ≠ 15#4)
    (hb : b ≠ 15#4) (hne : t ≠ t2) (hab : a ≠ b) :
    ∃ u v, exec (.mrrc c t t2) s = .next u ∧ exec (.mrrc c a b) u = .next v ∧ v.reg a = u.reg t ∧
      v.reg b = u.reg t2 ∧ v.par = s.par := by
  have hready := accessReady_setReg (accessReady_setReg h t (lowWord (s.par.get inst))) t2 (highWord (s.par.get inst))
  refine ⟨_, _, exec_mrrc_ready h ht ht2 hne, exec_mrrc_ready hready ha hb hab, ?_, ?_, rfl⟩
  · simp [hne, hab]
  · simp

/-- A second MCR finds the register and the high word as the first one found them, so it writes the same value again. -/
theorem mcr_mcr_idempotent (h : s.AccessReady inst) (ht : t ≠ 15#4) :
    ∃ u, exec (.mcr c t) s = .next u ∧ exec (.mcr c t) u = .next u := by
  refine ⟨_, exec_mcr_ready h ht, (exec_mcr_ready (accessReady_setPAR h inst _) ht).trans ?_⟩
  simp

/-- A second MCRR finds both registers as the first one found them, so it writes the same value again. -/
theorem mcrr_mcrr_idempotent (h : s.AccessReady inst) (ht : t ≠ 15#4) (ht2 : t2 ≠ 15#4) :
    ∃ u, exec (.mcrr c t t2) s = .next u ∧ exec (.mcrr c t t2) u = .next u := by
  refine ⟨_, exec_mcrr_ready h ht ht2, (exec_mcrr_ready (accessReady_setPAR h inst _) ht ht2).trans ?_⟩
  simp

/-- Settles O34: an access leaves the next one ready, a read leaves PAR as it was and a write leaves the registers as they were. -/
theorem readsRepeatAndWritesAreIdempotent : Obligations.ReadsRepeatAndWritesAreIdempotent := by
  intro s inst c t t2 a b h ht ht2 ha hb
  exact ⟨mrc_mrc_agree h ht ha, mrrc_mrrc_agree h ht ht2 ha hb, mcr_mcr_idempotent h ht, mcrr_mcrr_idempotent h ht ht2⟩

/-- Settles O44: the event's next state is the state with every flag cleared. -/
theorem contextSyncClearsEveryFlag : Obligations.ContextSyncClearsEveryFlag := by
  intro s h
  refine ⟨s.syncAll, execContextSync_ok h, fun inst => ?_, rfl, fun _ => rfl, rfl, rfl, rfl, rfl⟩
  rw [State.syncAll_unsynced, Banks.get_all]

end Sys2Proof.Machine
end

section
/-! SUPPORT. The decoder of A32 words against the encoder (R96, R103): decoding an instruction's word is admitting the instruction, and a
word that decodes is the word of its instruction. -/

namespace Sys2Proof

/-! ## Tuples with PAR's field values (R93) -/

theorem decodeTuple_tupleOf (i : Instr) : decodeTuple (tupleOf i) = admitInstr i := by
  cases i <;> rfl

theorem sys32_namesPAR_iff {x : Sys32} :
    x.namesPAR = true ↔
      x.coproc = 0b1111#4 ∧ x.opc1 = 0b000#3 ∧ x.crn = 0b0111#4 ∧ x.crm = 0b0100#4 ∧ x.opc2 = 0b000#3 := by
  simp [Sys32.namesPAR, and_assoc]

theorem sys64_namesPAR_iff {x : Sys64} :
    x.namesPAR = true ↔ x.coproc = 0b1111#4 ∧ x.opc1 = 0b0000#4 ∧ x.crm = 0b0111#4 := by
  simp [Sys64.namesPAR, and_assoc]

/-- A SYS32 tuple with PAR's field values holds nothing that its instruction does not. -/
theorem encodeA32_sys32_instr {x : Sys32} (h : x.namesPAR = true) : encodeA32 x.instr = wordOfSys32 x := by
  obtain ⟨d, c, co, o1, n, m, o2, t⟩ := x
  obtain ⟨rfl, rfl, rfl, rfl, rfl⟩ := sys32_namesPAR_iff.1 h
  cases d <;> rfl

/-- A SYS64 tuple with PAR's field values holds nothing that its instruction does not. -/
theorem encodeA32_sys64_instr {x : Sys64} (h : x.namesPAR = true) : encodeA32 x.instr = wordOfSys64 x := by
  obtain ⟨d, c, co, o1, m, t, t2⟩ := x
  obtain ⟨rfl, rfl, rfl⟩ := sys64_namesPAR_iff.1 h
  cases d <;> rfl

/-! ## Words -/

theorem tupleOfA32_encodeA32 (i : Instr) : tupleOfA32 (encodeA32 i) = tupleOf i := by
  cases i with
  | mrc c t => exact tupleOfA32_wordOfSys32 _
  | mcr c t => exact tupleOfA32_wordOfSys32 _
  | mrrc c t t2 => exact tupleOfA32_wordOfSys64 _
  | mcrr c t t2 => exact tupleOfA32_wordOfSys64 _

/-- The decoder reads an instruction's word back and then judges the instruction: by its condition, then by its register numbers. -/
theorem decodeA32_encodeA32 (i : Instr) : decodeA32 (encodeA32 i) = admitInstr i := by
  rw [decodeA32, tupleOfA32_encodeA32, decodeTuple_tupleOf]

/-- Settles O1: admitting a well-formed instruction answers the instruction. -/
theorem decodeEncodeA32RoundTrip : Obligations.DecodeEncodeA32RoundTrip :=
  fun i h => (decodeA32_encodeA32 i).trans (admitInstr_of_wellFormed h)

/-- Settles O2: the word is that of its tuple, and the tuple names PAR, so that its word is the instruction's. -/
theorem decodedWordIsTheInstructionsWord : Obligations.DecodedWordIsTheInstructionsWord := by
  intro w i h
  obtain ⟨hw, ⟨x, hx, hp, rfl⟩ | ⟨x, hx, hp, rfl⟩⟩ := decodeTuple_ok h
  · exact ⟨(encodeA32_sys32_instr hp).trans (wordOfSys32_of_tuple hx), hw⟩
  · exact ⟨(encodeA32_sys64_instr hp).trans (wordOfSys64_of_tuple hx), hw⟩

/-- The words that decode to an instruction: its own, when it is well formed. -/
theorem decodeA32_eq_ok_iff {w : Word} {i : Instr} : decodeA32 w = .ok i ↔ encodeA32 i = w ∧ i.wellFormed = true := by
  constructor
  · exact decodedWordIsTheInstructionsWord w i
  · rintro ⟨rfl, hw⟩
    exact decodeEncodeA32RoundTrip i hw

end Sys2Proof
end

section
/-! SUPPORT. The A32 words of the four accesses field by field, and the masks of the filled table of R96 over the same fields. -/

namespace Sys2Proof

/-! ## The five fields of a word: condition, bits 27:20, 19:16, Rt, bits 11:0 -/

theorem word_eq_append_fields (w : Word) :
    w = w.extractLsb' 28 4 ++ w.extractLsb' 20 8 ++ w.extractLsb' 16 4 ++ w.extractLsb' 12 4 ++ w.extractLsb' 0 12 := by
  rw [extractLsb'_join w 20 4 8 28 rfl, extractLsb'_join w 16 12 4 20 rfl, extractLsb'_join w 12 16 4 16 rfl,
    extractLsb'_join w 0 20 12 12 rfl]
  exact BitVec.extractLsb'_eq_self.symm

theorem word_eq_iff_fields {v w : Word} :
    v = w ↔ v.extractLsb' 28 4 = w.extractLsb' 28 4 ∧ v.extractLsb' 20 8 = w.extractLsb' 20 8 ∧
      v.extractLsb' 16 4 = w.extractLsb' 16 4 ∧ v.extractLsb' 12 4 = w.extractLsb' 12 4 ∧
      v.extractLsb' 0 12 = w.extractLsb' 0 12 := by
  constructor
  · rintro rfl
    exact ⟨rfl, rfl, rfl, rfl, rfl⟩
  · rintro ⟨h1, h2, h3, h4, h5⟩
    rw [word_eq_append_fields v, h1, h2, h3, h4, h5, ← word_eq_append_fields]

/-- The mask of the 32-bit accesses leaves out the condition and Rt. -/
theorem and_mask32_eq_iff {w p : Word} :
    w &&& 0x0FFF0FFF#32 = p ↔ 0#4 = p.extractLsb' 28 4 ∧ w.extractLsb' 20 8 = p.extractLsb' 20 8 ∧
      w.extractLsb' 16 4 = p.extractLsb' 16 4 ∧ 0#4 = p.extractLsb' 12 4 ∧
      w.extractLsb' 0 12 = p.extractLsb' 0 12 := by
  have h8 : w.extractLsb' 20 8 &&& 0xFF#8 = w.extractLsb' 20 8 := BitVec.and_allOnes
  have h4 : w.extractLsb' 16 4 &&& 0xF#4 = w.extractLsb' 16 4 := BitVec.and_allOnes
  have h12 : w.extractLsb' 0 12 &&& 0xFFF#12 = w.extractLsb' 0 12 := BitVec.and_allOnes
  simp [word_eq_iff_fields, BitVec.extractLsb'_and, h8, h4, h12]

/-- The mask of the 64-bit accesses leaves out the condition, Rt2 and Rt. -/
theorem and_mask64_eq_iff {w p : Word} :
    w &&& 0x0FF00FFF#32 = p ↔ 0#4 = p.extractLsb' 28 4 ∧ w.extractLsb' 20 8 = p.extractLsb' 20 8 ∧
      0#4 = p.extractLsb' 16 4 ∧ 0#4 = p.extractLsb' 12 4 ∧
      w.extractLsb' 0 12 = p.extractLsb' 0 12 := by
  have h8 : w.extractLsb' 20 8 &&& 0xFF#8 = w.extractLsb' 20 8 := BitVec.and_allOnes
  have h12 : w.extractLsb' 0 12 &&& 0xFFF#12 = w.extractLsb' 0 12 := BitVec.and_allOnes
  simp [word_eq_iff_fields, BitVec.extractLsb'_and, h8, h12]

/-! ## The words of the accesses -/

theorem wordOfSys32_sys32PAR_fields (d : Dir) (c : BitVec 4) (t : RegNo) :
    (wordOfSys32 (sys32PAR d c t)).extractLsb' 28 4 = c ∧
    (wordOfSys32 (sys32PAR d c t)).extractLsb' 20 8 = 0b1110000#7 ++ bitOfDir d ∧
    (wordOfSys32 (sys32PAR d c t)).extractLsb' 16 4 = 0b0111#4 ∧
    (wordOfSys32 (sys32PAR d c t)).extractLsb' 12 4 = t ∧
    (wordOfSys32 (sys32PAR d c t)).extractLsb' 0 12 = 0xF14#12 := by
  cases d <;> simp [-Nat.reduceAdd, wordOfSys32, sys32PAR, bitOfDir, BitVec.extractLsb'_append_eq_ite]

theorem wordOfSys64_sys64PAR_fields (d : Dir) (c : BitVec 4) (t t2 : RegNo) :
    (wordOfSys64 (sys64PAR d c t t2)).extractLsb' 28 4 = c ∧
    (wordOfSys64 (sys64PAR d c t t2)).extractLsb' 20 8 = 0b1100010#7 ++ bitOfDir d ∧
    (wordOfSys64 (sys64PAR d c t t2)).extractLsb' 16 4 = t2 ∧
    (wordOfSys64 (sys64PAR d c t t2)).extractLsb' 12 4 = t ∧
    (wordOfSys64 (sys64PAR d c t t2)).extractLsb' 0 12 = 0xF07#12 := by
  cases d <;> simp [-Nat.reduceAdd, wordOfSys64, sys64PAR, bitOfDir, BitVec.extractLsb'_append_eq_ite]

theorem extractLsb'_cond_encodeA32 (i : Instr) : (encodeA32 i).extractLsb' 28 4 = i.cond := by
  cases i with
  | mrc c t => exact (wordOfSys32_sys32PAR_fields .read c t).1
  | mcr c t => exact (wordOfSys32_sys32PAR_fields .write c t).1
  | mrrc c t t2 => exact (wordOfSys64_sys64PAR_fields .read c t t2).1
  | mcrr c t t2 => exact (wordOfSys64_sys64PAR_fields .write c t t2).1

/-- A word is that of a 32-bit access when it agrees under the mask with the access of condition 0 and register 0. -/
theorem wordOfSys32_sys32PAR_eq_iff {d : Dir} {c : BitVec 4} {t : RegNo} {w : Word} :
    wordOfSys32 (sys32PAR d c t) = w ↔
      w &&& 0x0FFF0FFF#32 = wordOfSys32 (sys32PAR d 0#4 0#4) ∧ c = w.extractLsb' 28 4 ∧ t = w.extractLsb' 12 4 := by
  rw [word_eq_iff_fields, and_mask32_eq_iff]
  simp only [wordOfSys32_sys32PAR_fields]
  constructor
  · rintro ⟨hc, h8, h4, ht, h12⟩
    exact ⟨⟨trivial, h8.symm, h4.symm, trivial, h12.symm⟩, hc, ht⟩
  · rintro ⟨⟨-, h8, h4, -, h12⟩, hc, ht⟩
    exact ⟨hc, h8.symm, h4.symm, ht, h12.symm⟩

/-- A word is that of a 64-bit access when it agrees under the mask with the access of condition 0 and registers 0. -/
theorem wordOfSys64_sys64PAR_eq_iff {d : Dir} {c : BitVec 4} {t t2 : RegNo} {w : Word} :
    wordOfSys64 (sys64PAR d c t t2) = w ↔
      w &&& 0x0FF00FFF#32 = wordOfSys64 (sys64PAR d 0#4 0#4 0#4) ∧
        c = w.extractLsb' 28 4 ∧ t = w.extractLsb' 12 4 ∧ t2 = w.extractLsb' 16 4 := by
  rw [word_eq_iff_fields, and_mask64_eq_iff]
  simp only [wordOfSys64_sys64PAR_fields]
  constructor
  · rintro ⟨hc, h8, ht2, ht, h12⟩
    exact ⟨⟨trivial, h8.symm, trivial, trivial, h12.symm⟩, hc, ht, ht2⟩
  · rintro ⟨⟨-, h8, -, -, h12⟩, hc, ht, ht2⟩
    exact ⟨hc, h8.symm, ht2, ht, h12.symm⟩

end Sys2Proof
end

section
/-! SUPPORT. The statements about words, halfwords, tuples and assembler lines (R94 to R97, R100, R101). -/

namespace Sys2Proof.Machine

/-! ## Well-formedness, form by form (R96, R100) -/

theorem condOk_iff {c : BitVec 4} : condOk c = true ↔ c ≠ 15#4 := by simp [condOk]

theorem wellFormed_mrc_iff {c : BitVec 4} {t : RegNo} : (Instr.mrc c t).wellFormed = true ↔ c ≠ 15#4 ∧ t ≠ 15#4 := by
  simp [Instr.wellFormed, condOk_iff, regNoOk_iff]

theorem wellFormed_mcr_iff {c : BitVec 4} {t : RegNo} : (Instr.mcr c t).wellFormed = true ↔ c ≠ 15#4 ∧ t ≠ 15#4 := by
  simp [Instr.wellFormed, condOk_iff, regNoOk_iff]

theorem wellFormed_mrrc_iff {c : BitVec 4} {t t2 : RegNo} :
    (Instr.mrrc c t t2).wellFormed = true ↔ c ≠ 15#4 ∧ t ≠ 15#4 ∧ t2 ≠ 15#4 ∧ t ≠ t2 := by
  simp [Instr.wellFormed, condOk_iff, regNoOk_iff, and_assoc]

theorem wellFormed_mcrr_iff {c : BitVec 4} {t t2 : RegNo} :
    (Instr.mcrr c t t2).wellFormed = true ↔ c ≠ 15#4 ∧ t ≠ 15#4 ∧ t2 ≠ 15#4 := by
  simp [Instr.wellFormed, condOk_iff, regNoOk_iff, and_assoc]

/-! ## The opcode table (R96) -/

/-- A word is an MRC or an MCR when it matches its row's mask and the fields the mask leaves out are admitted. -/
theorem exists_decodeA32_sys32_iff (d : Dir) (w : Word) :
    (∃ c t, decodeA32 w = .ok (sys32PAR d c t).instr) ↔
      w &&& 0x0FFF0FFF#32 = wordOfSys32 (sys32PAR d 0#4 0#4) ∧
        (sys32PAR d (w.extractLsb' 28 4) (w.extractLsb' 12 4)).instr.wellFormed = true := by
  have hiff (c t) : decodeA32 w = .ok (sys32PAR d c t).instr ↔
      (w &&& 0x0FFF0FFF#32 = wordOfSys32 (sys32PAR d 0#4 0#4) ∧ c = w.extractLsb' 28 4 ∧ t = w.extractLsb' 12 4) ∧
        (sys32PAR d c t).instr.wellFormed = true := by
    rw [decodeA32_eq_ok_iff, encodeA32_sys32_instr rfl, wordOfSys32_sys32PAR_eq_iff]
  constructor
  · rintro ⟨c, t, h⟩
    obtain ⟨⟨hm, rfl, rfl⟩, hw⟩ := (hiff c t).1 h
    exact ⟨hm, hw⟩
  · rintro ⟨hm, hw⟩
    exact ⟨_, _, (hiff _ _).2 ⟨⟨hm, rfl, rfl⟩, hw⟩⟩

/-- A word is an MRRC or an MCRR when it matches its row's mask and the fields the mask leaves out are admitted. -/
theorem exists_decodeA32_sys64_iff (d : Dir) (w : Word) :
    (∃ c t t2, decodeA32 w = .ok (sys64PAR d c t t2).instr) ↔
      w &&& 0x0FF00FFF#32 = wordOfSys64 (sys64PAR d 0#4 0#4 0#4) ∧
        (sys64PAR d (w.extractLsb' 28 4) (w.extractLsb' 12 4) (w.extractLsb' 16 4)).instr.wellFormed = true := by
  have hiff (c t t2) : decodeA32 w = .ok (sys64PAR d c t t2).instr ↔
      (w &&& 0x0FF00FFF#32 = wordOfSys64 (sys64PAR d 0#4 0#4 0#4) ∧
          c = w.extractLsb' 28 4 ∧ t = w.extractLsb' 12 4 ∧ t2 = w.extractLsb' 16 4) ∧
        (sys64PAR d c t t2).instr.wellFormed = true := by
    rw [decodeA32_eq_ok_iff, encodeA32_sys64_instr rfl, wordOfSys64_sys64PAR_eq_iff]
  constructor
  · rintro ⟨c, t, t2, h⟩
    obtain ⟨⟨hm, rfl, rfl, rfl⟩, hw⟩ := (hiff c t t2).1 h
    exact ⟨hm, hw⟩
  · rintro ⟨hm, hw⟩
    exact ⟨_, _, _, (hiff _ _ _).2 ⟨⟨hm, rfl, rfl, rfl⟩, hw⟩⟩

/-- Settles O5: each row's match is the word of its access with condition 0 and registers 0, and the premises of R96 and R100 are
well-formedness. -/
theorem wordIsTheInstructionIffMaskMatches : Obligations.WordIsTheInstructionIffMaskMatches := by
  intro w
  exact ⟨(exists_decodeA32_sys32_iff .read w).trans (and_congr_right' wellFormed_mrc_iff),
    (exists_decodeA32_sys32_iff .write w).trans (and_congr_right' wellFormed_mcr_iff),
    (exists_decodeA32_sys64_iff .read w).trans (and_congr_right' wellFormed_mrrc_iff),
    (exists_decodeA32_sys64_iff .write w).trans (and_congr_right' wellFormed_mcrr_iff)⟩

/-! ## The T32 halfwords (R97) -/

theorem extractLsb'_cond_append (hw1 hw2 : Half) : (hw1 ++ hw2 : Word).extractLsb' 28 4 = hw1.extractLsb' 12 4 := by
  simp [-Nat.reduceAdd, BitVec.extractLsb'_append_eq_ite]

/-- The condition field of a word that decodes is the instruction's condition. -/
theorem cond_of_decodeA32 {w : Word} {i : Instr} (h : decodeA32 w = .ok i) : i.cond = w.extractLsb' 28 4 := by
  obtain ⟨rfl, -⟩ := decodeA32_eq_ok_iff.1 h
  exact (extractLsb'_cond_encodeA32 i).symm

/-- Settles O4: the four bits that T32 fixes are the condition field of the word. -/
theorem t32DecodesTheA32WordsOfConditionAL : Obligations.T32DecodesTheA32WordsOfConditionAL := by
  intro hw1 hw2 i
  unfold decodeT32 tupleOfT32
  split
  next hal =>
    refine ⟨fun h => ⟨h, ?_⟩, And.left⟩
    rw [cond_of_decodeA32 h, extractLsb'_cond_append, hal]
  next hal =>
    refine ⟨nofun, fun ⟨h, hc⟩ => absurd ?_ hal⟩
    rw [← hc, cond_of_decodeA32 h, extractLsb'_cond_append]

theorem halfwords_append (w : Word) : w.extractLsb' 16 16 ++ w.extractLsb' 0 16 = w :=
  (extractLsb'_join w 0 16 16 16 rfl).trans BitVec.extractLsb'_eq_self

/-- Settles O3: the halfwords join to the A32 word, which decodes to the instruction. -/
theorem decodeEncodeT32RoundTrip : Obligations.DecodeEncodeT32RoundTrip := by
  intro i hw
  refine ⟨fun hc => ⟨_, _, if_pos hc, ?_⟩, fun hc => if_neg hc⟩
  rw [t32DecodesTheA32WordsOfConditionAL, halfwords_append]
  exact ⟨decodeEncodeA32RoundTrip i hw, hc⟩

/-- Settles O6: the vectors are closed words. -/
theorem publishedEncodingVectorsDecode : Obligations.PublishedEncodingVectorsDecode := by
  unfold Obligations.PublishedEncodingVectorsDecode
  decide

/-! ## Inadmissible registers (R100) -/

theorem admitInstr_of_registers {i : Instr} (hc : i.cond ≠ 15#4) (hw : ¬ i.wellFormed = true) :
    admitInstr i = .error .registerNumber := by
  rw [admitInstr, if_pos (condOk_iff.2 hc), if_neg hw]

theorem registerAccess_of_not_ok {s : State} {ok : Bool} {code : Nat} {act : Inst → State → State} (h : ¬ ok = true) :
    registerAccess ok code act s = .refused .registerNumber :=
  if_neg h

/-- An instruction that only its registers make ill formed is refused. -/
theorem exec_of_registers {i : Instr} (s : State) (hc : i.cond ≠ 15#4) (hw : ¬ i.wellFormed = true) :
    exec i s = .refused .registerNumber := by
  cases i with
  | mrc c t => exact registerAccess_of_not_ok fun h => hw (wellFormed_mrc_iff.2 ⟨hc, regNoOk_iff.1 h⟩)
  | mcr c t => exact registerAccess_of_not_ok fun h => hw (wellFormed_mcr_iff.2 ⟨hc, regNoOk_iff.1 h⟩)
  | mrrc c t t2 =>
    refine registerAccess_of_not_ok fun h => hw (wellFormed_mrrc_iff.2 ⟨hc, ?_⟩)
    simpa [twoDestOk, regNoOk_iff, and_assoc] using h
  | mcrr c t t2 =>
    refine registerAccess_of_not_ok fun h => hw (wellFormed_mcrr_iff.2 ⟨hc, ?_⟩)
    simpa [twoSourceOk, regNoOk_iff] using h

theorem decodeA32_encodeA32_of_registers {i : Instr} (hc : i.cond ≠ 15#4) (hw : ¬ i.wellFormed = true) :
    decodeA32 (encodeA32 i) = .error .registerNumber :=
  (decodeA32_encodeA32 i).trans (admitInstr_of_registers hc hw)

/-- Settles O8: each refused form is ill formed by its registers alone, and MCRR does not ask for two different ones. -/
theorem inadmissibleRegistersAreRefused : Obligations.InadmissibleRegistersAreRefused := by
  intro s c t t2 hc
  refine ⟨fun ht => ?_, fun ht => ?_, fun ht => ?_, fun ht => ?_⟩
  · have hr : ¬ (Instr.mrc c t).wellFormed = true := fun h => (wellFormed_mrc_iff.1 h).2 ht
    have hwr : ¬ (Instr.mcr c t).wellFormed = true := fun h => (wellFormed_mcr_iff.1 h).2 ht
    exact ⟨exec_of_registers s hc hr, exec_of_registers s hc hwr, decodeA32_encodeA32_of_registers hc hr,
      decodeA32_encodeA32_of_registers hc hwr⟩
  · have hw : ¬ (Instr.mrrc c t t2).wellFormed = true := by
      rw [wellFormed_mrrc_iff]; tauto
    exact ⟨exec_of_registers s hc hw, decodeA32_encodeA32_of_registers hc hw⟩
  · have hw : ¬ (Instr.mcrr c t t2).wellFormed = true := by
      rw [wellFormed_mcrr_iff]; tauto
    exact ⟨exec_of_registers s hc hw, decodeA32_encodeA32_of_registers hc hw⟩
  · exact decodeEncodeA32RoundTrip _ (wellFormed_mcrr_iff.2 ⟨hc, ht, ht⟩)

/-! ## Neighbouring encodings (R101) -/

/-- Settles O7: a tuple without PAR's field values is fetched as a refusal. -/
theorem neighbouringEncodingsAreRefused : Obligations.NeighbouringEncodingsAreRefused := by
  intro s e rest hp
  constructor
  · intro x hitem hx
    refine step_of_refuse hp ?_
    rw [hitem, fetchItem, decodeTuple, if_neg (mt sys32_namesPAR_iff.1 hx), fetchedOf]
  · intro x hitem hx
    refine step_of_refuse hp ?_
    rw [hitem, fetchItem, decodeTuple, if_neg (mt sys64_namesPAR_iff.1 hx), fetchedOf]

/-! ## Assembler lines (R94, R95) -/

/-- Settles O9: with the optional parts filled in, each line's tuple is its instruction's own. -/
theorem assemblerLinesNameTheInstructions : Obligations.AssemblerLinesNameTheInstructions := by
  intro oc c q t t2 hoc ht ht2
  have hc : c ≠ 15#4 ∧ oc.getD 0b1110#4 = c := by
    obtain ⟨rfl, hc⟩ | ⟨rfl, rfl⟩ := hoc
    · exact ⟨hc, rfl⟩
    · exact ⟨by decide, rfl⟩
  obtain ⟨hc, rfl⟩ := hc
  refine ⟨fun opc2 hopc2 => ?_, fun hne => ?_, ?_⟩
  · obtain rfl | rfl := hopc2 <;>
      exact ⟨Laws.TupleRoundTrip.mrc _ t (wellFormed_mrc_iff.2 ⟨hc, ht⟩),
        Laws.TupleRoundTrip.mcr _ t (wellFormed_mcr_iff.2 ⟨hc, ht⟩)⟩
  · exact Laws.TupleRoundTrip.mrrc _ t t2 (wellFormed_mrrc_iff.2 ⟨hc, ht, ht2, hne⟩)
  · exact Laws.TupleRoundTrip.mcrr _ t t2 (wellFormed_mcrr_iff.2 ⟨hc, ht, ht2⟩)

end Sys2Proof.Machine
end

section
/-! SUPPORT. The write-back of a translation result: which results it takes (R117), what it leaves unchanged (R110), the fields of the value
it stores (R111 to R114), and what software reads back (R118). -/

namespace Sys2Proof.Machine

/-! ## The permitted results (R117) -/

/-- The values of Inner with a row in the table of R29. -/
theorem innerAttr_isSome_iff : ∀ v : BitVec 3,
    (innerAttr v).isSome = true ↔ v ∈ [0b000#3, 0b001#3, 0b011#3, 0b101#3, 0b110#3, 0b111#3] := by
  decide

/-- The values of SH that R49 does not reserve. -/
theorem shareabilityS64_isSome_iff : ∀ sh : BitVec 2,
    (shareabilityS64 sh).isSome = true ↔ sh ∈ [0b00#2, 0b10#2, 0b11#2] := by
  decide

/-- The codes with a row that applies in the table of R40. -/
theorem fsStatus_isSome_iff : ∀ (ras : Bool) (fs : BitVec 5),
    (fsStatus ras fs).isSome = true ↔
      fs ∈ [0b00001#5, 0b00011#5, 0b00100#5, 0b00101#5, 0b00110#5, 0b00111#5, 0b01001#5, 0b01011#5, 0b01100#5, 0b01101#5,
        0b01110#5, 0b01111#5, 0b10000#5] ∨
      (ras = false ∧ fs ∈ [0b11001#5, 0b11100#5, 0b11110#5]) := by
  decide

/-- The codes with a row that applies in the table of R62. -/
theorem fstStatus_isSome_iff : ∀ (ras : Bool) (fst : BitVec 6),
    (fstStatus ras fst).isSome = true ↔
      fst ∈ [0b000000#6, 0b000001#6, 0b000010#6, 0b000011#6, 0b000101#6, 0b000110#6, 0b000111#6, 0b001001#6, 0b001010#6,
        0b001011#6, 0b001101#6, 0b001110#6, 0b001111#6, 0b010101#6, 0b010110#6, 0b010111#6, 0b110000#6] ∨
      (ras = false ∧ fst ∈ [0b011101#6, 0b011110#6, 0b011111#6]) := by
  decide

/-- FS[5] is 1 only for a classified External abort, a parity or an ECC error (R39). -/
theorem fs5Ok_iff {classifies : Bool} {fs5 : BitVec 1} {fs : BitVec 5} :
    fs5Ok classifies fs5 fs = true ↔ (fs5 = 1#1 → classifies = true ∧ fs ∈ externalAbortCodes) := by
  obtain rfl | rfl := BitVec.eq_zero_or_eq_one fs5 <;> simp [fs5Ok]

theorem ite_none_some_eq_none_iff {α : Type} {p : Prop} [Decidable p] {a : α} : (if p then none else some a) = none ↔ p := by
  split <;> simp [*]

/-- A result has no defect exactly when R117 admits it. -/
theorem resultDefect_none_iff (cfg : Config) (res : ATResult) : resultDefect cfg res = none ↔ PermittedResult cfg res := by
  cases res with
  | s32 r => exact ite_none_some_eq_none_iff.trans (innerAttr_isSome_iff r.inner)
  | f32 r =>
    refine Iff.trans ?_ (and_congr (fsStatus_isSome_iff cfg.haveRAS r.fs) fs5Ok_iff)
    rw [resultDefect]
    split
    next hfs => simp [hfs]
    next hfs => simp [hfs]
  | s64 r => exact ite_none_some_eq_none_iff.trans (shareabilityS64_isSome_iff r.sh)
  | f64 r => exact ite_none_some_eq_none_iff.trans (fstStatus_isSome_iff cfg.haveRAS r.fst)

/-- Settles O36: the event is refused exactly for a defect of its context, its instance or its result. -/
theorem writeBackCompletesExactlyOnPermittedResults : Obligations.WriteBackCompletesExactlyOnPermittedResults := by
  intro s inst res
  rw [← instExists_iff, ← resultDefect_none_iff]
  constructor
  · rintro ⟨t, h⟩
    obtain ⟨hc, he, hd, -⟩ := execATResult_next h
    exact ⟨hc, he, hd⟩
  · rintro ⟨hc, he, hd⟩
    exact ⟨_, execATResult_ok hc he hd⟩

/-! ## The frame of the event (R110) -/

/-- Settles O37: the event's next state is the write-back. -/
theorem writeBackChangesOneInstance : Obligations.WriteBackChangesOneInstance := by
  intro s t inst res h
  obtain ⟨-, -, -, rfl⟩ := execATResult_next h
  refine ⟨?_, fun _ => rfl, fun j hj => ⟨?_, ?_⟩, rfl, rfl, rfl⟩
  · simp
  · simp [hj]
  · simp [hj]

/-- What a completed event stored in its instance. -/
theorem execATResult_par_get {s t : State} {inst : Inst} {res : ATResult} (h : execATResult inst res s = .next t) :
    t.par.get inst = valueOf s.cfg.paSize (freeBits s.draws) res := by
  obtain ⟨-, -, -, rfl⟩ := execATResult_next h
  simp

/-! ## The fields of a stored value (R111 to R114) -/

/-- The fields of R111. -/
theorem valueS32_fields (n : Nat) (fb : FreeBits) (r : S32Result) :
    (valueS32 n fb r).extractLsb' 12 20 = paFieldS32 r.ss (reportedOA n fb r) ∧
    (valueS32 n fb r).extractLsb' 11 1 = 0#1 ∧
    (valueS32 n fb r).extractLsb' 10 1 = nosBit fb r.sh r.nos ∧
    (valueS32 n fb r).extractLsb' 9 1 = nsBit fb r.secureRegime r.ns ∧
    (valueS32 n fb r).extractLsb' 7 1 = r.sh ∧
    (valueS32 n fb r).extractLsb' 4 3 = r.inner ∧
    (valueS32 n fb r).extractLsb' 2 2 = r.outer ∧
    (valueS32 n fb r).extractLsb' 1 1 = r.ss ∧
    (valueS32 n fb r).extractLsb' 0 1 = 0#1 := by
  simp [-Nat.reduceAdd, valueS32, BitVec.extractLsb'_append_eq_ite]

/-- The fields of R112. -/
theorem valueF32_fields (fb : FreeBits) (r : F32Result) :
    (valueF32 fb r).extractLsb' 12 4 = 0#4 ∧
    (valueF32 fb r).extractLsb' 11 1 = 0#1 ∧
    (valueF32 fb r).extractLsb' 7 4 = 0#4 ∧
    (valueF32 fb r).extractLsb' 6 1 = r.fs5 ∧
    (valueF32 fb r).extractLsb' 1 5 = r.fs ∧
    (valueF32 fb r).extractLsb' 0 1 = 1#1 := by
  simp [-Nat.reduceAdd, valueF32, BitVec.extractLsb'_append_eq_ite]

/-- The fields of R113. -/
theorem valueS64_fields (fb : FreeBits) (r : S64Result) :
    (valueS64 fb r).extractLsb' 56 8 = r.attr ∧
    (valueS64 fb r).extractLsb' 40 16 = 0#16 ∧
    (valueS64 fb r).extractLsb' 12 28 = r.oa.extractLsb' 12 28 ∧
    (valueS64 fb r).extractLsb' 11 1 = 1#1 ∧
    (valueS64 fb r).extractLsb' 9 1 = nsBit fb r.secureRegime r.ns ∧
    (valueS64 fb r).extractLsb' 7 2 = r.sh ∧
    (valueS64 fb r).extractLsb' 1 6 = 0#6 ∧
    (valueS64 fb r).extractLsb' 0 1 = 0#1 := by
  simp [-Nat.reduceAdd, valueS64, BitVec.extractLsb'_append_eq_ite]

/-- The fields of R114. -/
theorem valueF64_fields (fb : FreeBits) (r : F64Result) :
    (valueF64 fb r).extractLsb' 12 36 = 0#36 ∧
    (valueF64 fb r).extractLsb' 11 1 = 1#1 ∧
    (valueF64 fb r).extractLsb' 10 1 = 0#1 ∧
    (valueF64 fb r).extractLsb' 9 1 = r.fstage ∧
    (valueF64 fb r).extractLsb' 8 1 = r.s2wlk ∧
    (valueF64 fb r).extractLsb' 7 1 = 0#1 ∧
    (valueF64 fb r).extractLsb' 1 6 = r.fst ∧
    (valueF64 fb r).extractLsb' 0 1 = 1#1 := by
  simp [-Nat.reduceAdd, valueF64, BitVec.extractLsb'_append_eq_ite]

theorem nsBit_of_secure {fb : FreeBits} {secure : Bool} {ns : BitVec 1} (h : secure = true) : nsBit fb secure ns = ns :=
  if_pos h

theorem nosBit_of_shareable {fb : FreeBits} {sh nos : BitVec 1} (h : sh = 1#1) : nosBit fb sh nos = nos :=
  if_pos h

/-! ## The address of an S32 value (R23, R31) -/

theorem implementedMask_getLsbD (n k : Nat) : (implementedMask n).getLsbD k = decide (k < 40 ∧ k < n) := by
  rw [implementedMask, BitVec.getLsbD_ofNat, Nat.testBit_two_pow_sub_one, Bool.decide_and]

/-- An implemented bit of the address is reported as it is, whichever bits the draw replaces. -/
theorem reportedOA_getLsbD {n : Nat} {fb : FreeBits} {r : S32Result} {k : Nat} (hk : k < n) :
    (reportedOA n fb r).getLsbD k = r.oa.getLsbD k := by
  unfold reportedOA
  split
  next h =>
    have hmask : (implementedMask n).getLsbD k = true := by
      rw [implementedMask_getLsbD]
      exact decide_eq_true ⟨hk.trans h.2, hk⟩
    simp only [BitVec.getLsbD_or, BitVec.getLsbD_and, BitVec.getLsbD_not, hmask, Bool.not_true, Bool.and_false, Bool.and_true,
      Bool.false_or]
  next => rfl

/-- A page's PA field is OA[31:12]: no bit of it is drawn. -/
theorem paFieldS32_of_page {n : Nat} {fb : FreeBits} {r : S32Result} (h : r.ss = 0#1) :
    paFieldS32 r.ss (reportedOA n fb r) = r.oa.extractLsb' 12 20 := by
  simp [paFieldS32, reportedOA, h]

/-- The bits of a Supersection's value that hold its address: those of OA[31:24] are all implemented (R3), those of OA[39:32] up to the
implemented width. -/
theorem valueS32_supersection {n : Nat} {fb : FreeBits} {r : S32Result} (hn : 32 ≤ n) (h : r.ss = 1#1) :
    (valueS32 n fb r).extractLsb' 24 8 = r.oa.extractLsb' 24 8 ∧ (valueS32 n fb r).extractLsb' 12 4 = 0#4 ∧
      ∀ k, k < 8 → 32 + k < n → (valueS32 n fb r).getLsbD (16 + k) = r.oa.getLsbD (32 + k) := by
  have hpa : paFieldS32 r.ss (reportedOA n fb r) =
      (reportedOA n fb r).extractLsb' 24 8 ++ (reportedOA n fb r).extractLsb' 32 8 ++ 0b0000#4 := by
    rw [paFieldS32, h, if_neg (by decide)]
  have hbits : (valueS32 n fb r).extractLsb' 24 8 = (reportedOA n fb r).extractLsb' 24 8 ∧
      (valueS32 n fb r).extractLsb' 12 4 = 0#4 ∧
      (valueS32 n fb r).extractLsb' 16 8 = (reportedOA n fb r).extractLsb' 32 8 := by
    simp [-Nat.reduceAdd, valueS32, hpa, BitVec.extractLsb'_append_eq_ite]
  obtain ⟨hmid, hzero, htop⟩ := hbits
  refine ⟨hmid.trans ?_, hzero, fun k hk hkn => ?_⟩
  · ext k hk
    have himpl : 24 + k < n := by omega
    simp [reportedOA_getLsbD himpl]
  · have hbit := congrArg (BitVec.getLsbD · k) htop
    simpa [hk, reportedOA_getLsbD hkn] using hbit

/-! ## The stored bits, format by format -/

/-- Settles O38: the fields of the value, the address by what a page and a Supersection report. -/
theorem s32ValueBits : Obligations.S32ValueBits := by
  intro s t inst r hn h
  obtain ⟨hpa, hlpae, hnos, hns, hfields⟩ := valueS32_fields s.cfg.paSize (freeBits s.draws) r
  exact ⟨_, execATResult_par_get h, fun hss => hpa.trans (paFieldS32_of_page hss), valueS32_supersection hn, hlpae,
    fun hsh => hnos.trans (nosBit_of_shareable hsh), fun hsec => hns.trans (nsBit_of_secure hsec), hfields⟩

/-- Settles O39: every field of a fault result is stored as it is. -/
theorem f32ValueBits : Obligations.F32ValueBits := fun s _ _ r h =>
  ⟨_, execATResult_par_get h, valueF32_fields (freeBits s.draws) r⟩

/-- Settles O40: NS is the result's in a Secure regime. -/
theorem s64ValueBits : Obligations.S64ValueBits := by
  intro s t inst r h
  obtain ⟨hattr, hzero, hoa, hlpae, hns, hfields⟩ := valueS64_fields (freeBits s.draws) r
  exact ⟨_, execATResult_par_get h, hattr, hzero, hoa, hlpae, fun hsec => hns.trans (nsBit_of_secure hsec), hfields⟩

/-- Settles O41: every field of a fault result is stored as it is. -/
theorem f64ValueBits : Obligations.F64ValueBits := fun s _ _ r h =>
  ⟨_, execATResult_par_get h, valueF64_fields (freeBits s.draws) r⟩

/-! ## Reading the result back (R118) -/

/-- Settles O42: LPAE and F select the format's own view, whose fields are the bits that the write-back stored. -/
theorem softwareRecoversTheResult : Obligations.SoftwareRecoversTheResult := by
  intro s t inst res hn h
  cases res with
  | s32 r =>
    obtain ⟨v, rfl, hpage, hsuper, hlpae, hnos, hns, hsh, hinner, houter, hss, hf⟩ := s32ValueBits s t inst r hn h
    simp only [parView, formatOf, bitLPAE, bitF, hlpae, hf, if_true, paView, hss, ReadsBackAs]
    refine ⟨?_, hsh, hnos, hns, hinner, houter⟩
    obtain h0 | h1 := BitVec.eq_zero_or_eq_one r.ss
    · simpa [h0] using hpage h0
    · obtain ⟨hmid, -, htop⟩ := hsuper h1
      simp only [h1]
      refine ⟨trivial, hmid, fun k hk hkn => ?_⟩
      simpa [hk] using htop k hk hkn
  | f32 r =>
    obtain ⟨v, rfl, -, hlpae, -, hfs5, hfs, hf⟩ := f32ValueBits s t inst r h
    simpa [parView, formatOf, bitLPAE, bitF, hlpae, hf, ReadsBackAs] using And.intro hfs5 hfs
  | s64 r =>
    obtain ⟨v, rfl, hattr, -, hoa, hlpae, hns, hsh, -, hf⟩ := s64ValueBits s t inst r h
    simpa [parView, formatOf, bitLPAE, bitF, hlpae, hf, ReadsBackAs] using And.intro hattr ⟨hoa, hns, hsh⟩
  | f64 r =>
    obtain ⟨v, rfl, -, hlpae, -, hfstage, hs2wlk, -, hfst, hf⟩ := f64ValueBits s t inst r h
    simpa [parView, formatOf, bitLPAE, bitF, hlpae, hf, ReadsBackAs] using And.intro hfstage ⟨hs2wlk, hfst⟩

end Sys2Proof.Machine
end

section
/-! SUPPORT. The 32-bit accesses: what a ready one answers, what an access that answers a next state leaves unchanged, and each access as
the source's pseudocode. -/

namespace Sys2Proof.Machine

variable {s s' : State}

/-! ## The ready accesses -/

/-- Settles O10: the next state of a ready MRC is the state with one register written. -/
theorem mrcReadsTheLowWord : Obligations.MrcReadsTheLowWord := by
  intro s inst c t ht h
  refine ⟨_, exec_mrc_ready h ht, ?_, fun r hr => ?_, rfl, rfl, rfl, rfl, rfl, rfl⟩
  · simp [lowWord]
  · simp [hr]

/-- Settles O11: the next state of a ready MCR is the state with the low word of one instance replaced. -/
theorem mcrWritesTheLowWord : Obligations.McrWritesTheLowWord := by
  intro s inst c t ht h
  refine ⟨_, exec_mcr_ready h ht, ?_, ?_, fun j hj => ?_, fun _ => rfl, rfl, rfl, rfl, rfl, rfl⟩
  · rw [State.setPAR_par, Banks.get_set, if_pos rfl]
    exact lowWord_replaceLow _ _
  · rw [State.setPAR_par, Banks.get_set, if_pos rfl]
    exact highWord_replaceLow _ _
  · simp [hj]

/-! ## Frames -/

/-- An instruction changes nothing but general registers and instances of PAR. -/
theorem exec_keeps_all_but_values {i : Instr} (h : exec i s = .next s') :
    s'.unsynced = s.unsynced ∧ s'.cfg = s.cfg ∧ s'.ctx = s.ctx ∧ s'.draws = s.draws ∧ s'.program = s.program :=
  ⟨exec_unsynced h, exec_cfg h, exec_ctx h, exec_keeps State.draws (fun _ _ _ => rfl) (fun _ _ _ => rfl) h,
    exec_keeps State.program (fun _ _ _ => rfl) (fun _ _ _ => rfl) h⟩

theorem exec_mrc_reg_of_ne {c : BitVec 4} {t r : RegNo} (h : exec (.mrc c t) s = .next s') (hr : r ≠ t) :
    s'.reg r = s.reg r :=
  registerAccess_keeps (act := moveMRC t) (State.reg · r) (fun _ => by simp [moveMRC, hr]) h

theorem exec_mrrc_reg_of_ne {c : BitVec 4} {t t2 r : RegNo} (h : exec (.mrrc c t t2) s = .next s') (hr : r ≠ t)
    (hr2 : r ≠ t2) : s'.reg r = s.reg r :=
  registerAccess_keeps (act := moveMRRC t t2) (State.reg · r) (fun _ => by simp [moveMRRC, hr, hr2]) h

theorem exec_mrrc_par {c : BitVec 4} {t t2 : RegNo} (h : exec (.mrrc c t t2) s = .next s') : s'.par = s.par :=
  registerAccess_keeps (act := moveMRRC t t2) State.par (fun _ => rfl) h

theorem exec_mcr_reg {c : BitVec 4} {t : RegNo} (h : exec (.mcr c t) s = .next s') (r : RegNo) : s'.reg r = s.reg r :=
  registerAccess_keeps (act := moveMCR t) (State.reg · r) (fun _ => rfl) h

theorem exec_mcrr_reg {c : BitVec 4} {t t2 : RegNo} (h : exec (.mcrr c t t2) s = .next s') (r : RegNo) :
    s'.reg r = s.reg r :=
  registerAccess_keeps (act := moveMCRR t t2) (State.reg · r) (fun _ => rfl) h

/-- An instruction changes no instance that its access does not reach (R12). -/
theorem exec_par_get_of_not_reaches {i : Instr} {j : Inst} (h : exec i s = .next s') (hj : ¬ s.Reaches j) :
    s'.par.get j = s.par.get j := by
  obtain ⟨hu, -, -⟩ := exec_accessProceeds h
  have hsel : s.Reaches (selectPAR s.cfg s.ctx) := reaches_selectPAR fun h0 => hu (.inr h0)
  exact exec_par_get_of_ne h fun he => hj (he ▸ hsel)

/-- Settles O24: the moves of MRC and MRRC write no register but their destinations. -/
theorem readsChangeOnlyTheirDestinations : Obligations.ReadsChangeOnlyTheirDestinations := by
  intro s u c t t2
  constructor
  · intro h
    exact ⟨fun r hr => exec_mrc_reg_of_ne h hr, (exec_mrc_next h).1, exec_keeps_all_but_values h⟩
  · intro h
    exact ⟨fun r hr hr2 => exec_mrrc_reg_of_ne h hr hr2, exec_mrrc_par h, exec_keeps_all_but_values h⟩

/-- Settles O25: the moves of MCR and MCRR write no register, and no instance but the one reached. -/
theorem writesChangeOnlyTheInstanceReached : Obligations.WritesChangeOnlyTheInstanceReached := by
  rintro s u c t t2 (h | h)
  · exact ⟨fun j hj => exec_par_get_of_not_reaches h hj, exec_mcr_reg h, exec_keeps_all_but_values h⟩
  · exact ⟨fun j hj => exec_par_get_of_not_reaches h hj, exec_mcrr_reg h, exec_keeps_all_but_values h⟩

/-! ## The source's pseudocode -/

section Pseudocode

variable {code : Nat} {assign : Inst → Host.Outcome State Fault Refusal}

theorem presentAccess_undefined (h : s.AccessUndefined) : presentAccess s code assign = .fault .undefined := by
  obtain hp | h0 := h
  · simp [presentAccess, hp]
  · simp [presentAccess, sourceAccess, h0]

theorem presentAccess_a64 (h : s.AccessTrapsToA64) : presentAccess s code assign = .fault (.a64SysTrap .el2 code) := by
  obtain ⟨hp, h1, hen, h32, ht7⟩ := h
  simp [presentAccess, sourceAccess, hp, h1, hen, h32, ht7]

theorem presentAccess_hyp (h : s.AccessTrapsToHyp) : presentAccess s code assign = .fault (.hypTrap code) := by
  obtain ⟨hp, h1, hen, h32, ht7⟩ := h
  simp [presentAccess, sourceAccess, hp, h1, hen, h32, ht7]

/-- Where R146 raises no exception the pseudocode makes the assignment to the instance that R12 selects. -/
theorem presentAccess_proceeds (h : s.AccessProceeds) :
    presentAccess s code assign = assign (selectPAR s.cfg s.ctx) := by
  obtain ⟨hu, ha, hh⟩ := h
  obtain ⟨hp, h0⟩ := not_or.1 hu
  simp only [Bool.not_eq_false] at hp
  cases hel : s.ctx.el with
  | el0 => exact absurd hel h0
  | el1 =>
    simp only [State.AccessTrapsToA64, State.AccessTrapsToHyp, hp, hel, true_and] at ha hh
    simp [presentAccess, sourceAccess, selectPAR, banked, hp, hel, and_assoc, ha, hh, apply_ite assign]
  | el2 => simp [presentAccess, sourceAccess, selectPAR, banked, hp, hel, apply_ite assign]
  | el3 => simp [presentAccess, sourceAccess, selectPAR, hp, hel, apply_ite assign]

/-- Where the access check stops an access the pseudocode raises the same exception (R146). -/
theorem presentAccess_stop {f : Fault} (hk : accessCheck s.cfg s.ctx code = .stop f) :
    presentAccess s code assign = .fault f := by
  obtain ⟨he, h⟩ | ⟨he, h⟩ | ⟨he, h⟩ | ⟨he, -⟩ := accessCheck_cases s code <;> rw [he] at hk <;> cases hk
  · exact presentAccess_undefined h
  · exact presentAccess_a64 h
  · exact presentAccess_hyp h

end Pseudocode

/-- A direct access whose condition passed and which the check lets proceed makes its move unless R176 refuses it. -/
theorem directAccess_condPassed {code : Nat} {act : Inst → State → State} (hc : s.ContextOk) (hp : s.AccessProceeds)
    (hcp : s.ctx.condPassed = true) :
    directAccess code act s =
      if s.cfg.syncRequired && s.unsynced.get (selectPAR s.cfg s.ctx) then
        .refused (.unsynchronised (selectPAR s.cfg s.ctx))
      else .next (act (selectPAR s.cfg s.ctx) s) := by
  unfold directAccess
  rw [(contextDefect_none_iff s).2 hc, (accessCheck_proceed_iff s code).2 hp, hcp]
  rfl

/-- In a well-formed context a direct access is what its rule writes: each outcome of the access check, with either outcome of the
condition. -/
theorem directAccess_eq_ruleAccess {code : Nat} {act : Inst → State → State} (hc : s.ContextOk) :
    directAccess code act s = ruleAccess s code fun inst => act inst s := by
  unfold ruleAccess
  cases hk : accessCheck s.cfg s.ctx code with
  | stop f => rw [directAccess_stop hc hk, presentAccess_stop hk, presentAccess_stop hk]
  | proceed =>
    have hp := (accessCheck_proceed_iff s code).1 hk
    rw [presentAccess_proceeds hp, presentAccess_proceeds hp]
    cases hcp : s.ctx.condPassed
    · exact directAccess_condFailed hc hp hcp
    · exact directAccess_condPassed hc hp hcp

/-- The same with the register numbers that a form does not admit refused first (R100). -/
theorem registerAccess_eq_ruleAccess {ok : Bool} {bad : Prop} [Decidable bad] {code : Nat} {act : Inst → State → State}
    (hc : s.ContextOk) (hok : ok = true ↔ ¬ bad) :
    registerAccess ok code act s =
      if bad then .refused .registerNumber else ruleAccess s code fun inst => act inst s := by
  by_cases hb : bad
  · rw [if_pos hb, registerAccess_of_not_ok fun h => hok.1 h hb]
  · rw [if_neg hb, registerAccess_ok (hok.2 hb), directAccess_eq_ruleAccess hc]

/-- MRRC admits what R100 does not refuse. -/
theorem twoDestOk_iff {t t2 : RegNo} : twoDestOk t t2 = true ↔ ¬ (t = 15#4 ∨ t2 = 15#4 ∨ t = t2) := by
  simp [twoDestOk, regNoOk_iff, and_assoc]

/-- MCRR admits what R100 does not refuse. -/
theorem twoSourceOk_iff {t t2 : RegNo} : twoSourceOk t t2 = true ↔ ¬ (t = 15#4 ∨ t2 = 15#4) := by
  simp [twoSourceOk, regNoOk_iff]

/-- Settles O14: each instruction is a register access, and its move is the assignment of its rule. -/
theorem accessesAreTheSourcePseudocode : Obligations.AccessesAreTheSourcePseudocode := by
  intro s c t t2 hc
  exact ⟨registerAccess_eq_ruleAccess (act := moveMRC t) hc regNoOk_iff,
    registerAccess_eq_ruleAccess (act := moveMCR t) hc regNoOk_iff,
    registerAccess_eq_ruleAccess (act := moveMRRC t t2) hc twoDestOk_iff,
    registerAccess_eq_ruleAccess (act := moveMCRR t t2) hc twoSourceOk_iff⟩

end Sys2Proof.Machine
end

section
/-! SUPPORT. The 64-bit accesses: what a ready MRRC and a ready MCRR answer, from the next states that the ready accesses name. -/

namespace Sys2Proof.Machine

/-- Settles O12: the next state of a ready MRRC is the state with two different registers written, so the second write keeps the first. -/
theorem mrrcReadsBothWords : Obligations.MrrcReadsBothWords := by
  intro s inst c t t2 ht ht2 hne h
  refine ⟨_, exec_mrrc_ready h ht ht2 hne, ?_, ?_, fun r hr hr2 => ?_, rfl, rfl, rfl, rfl, rfl, rfl⟩
  · simp [lowWord, hne]
  · simp [highWord]
  · simp [hr, hr2]

/-- Settles O13: the next state of a ready MCRR is the state with one instance replaced by the two words joined. -/
theorem mcrrWritesBothWords : Obligations.McrrWritesBothWords := by
  intro s inst c t t2 ht ht2 h
  refine ⟨_, exec_mcrr_ready h ht ht2, ?_, fun j hj => ?_, fun _ => rfl, rfl, rfl, rfl, rfl, rfl⟩
  · simp [joinWords]
  · simp [hj]

end Sys2Proof.Machine
end

section
/-! SUPPORT. The exceptional outcomes of an access (R141 to R143), and what no access depends on: PAR_S below EL3 (R161) and the two T7
bits at EL2 and EL3 (R146). -/

namespace Sys2Proof.Machine

variable {s : State} {i : Instr}

/-! ## Faults -/

/-- Everything that can make an instruction fault (R146, R147). -/
theorem exec_fault {f : Fault} (h : exec i s = .fault f) :
    s.ctx.condPassed = true ∧
      ((f = .undefined ∧ s.AccessUndefined) ∨ (f = .a64SysTrap .el2 (accessCode i) ∧ s.AccessTrapsToA64) ∨
       (f = .hypTrap (accessCode i) ∧ s.AccessTrapsToHyp)) := by
  obtain ⟨ok, act, -, he⟩ := exec_eq_registerAccess i
  rw [he] at h
  cases ok with
  | false => cases h
  | true => exact (directAccess_fault h).2

/-- A well-formed instruction whose condition passed raises the fault that the access check answers (R146). -/
theorem exec_of_accessCheck_stop {f : Fault} (hw : i.wellFormed = true) (hc : s.ContextOk) (hcp : s.ctx.condPassed = true)
    (hk : accessCheck s.cfg s.ctx (accessCode i) = .stop f) : exec i s = .fault f := by
  obtain ⟨act, he⟩ := exec_eq_directAccess hw
  rw [he, directAccess_stop hc hk, if_pos hcp]

/-- Settles O16: of the three reasons for a fault only the first answers `undefined`, and it stops the access check. -/
theorem undefinedForExactlyTwoCauses : Obligations.UndefinedForExactlyTwoCauses := by
  intro i s
  constructor
  · intro h
    obtain ⟨-, ⟨-, hu⟩ | ⟨hf, -⟩ | ⟨hf, -⟩⟩ := exec_fault h
    · exact hu
    · cases hf
    · cases hf
  · intro hw hc hcp hu
    exact exec_of_accessCheck_stop hw hc hcp ((accessCheck_undefined_iff s _).2 hu)

/-- Settles O17: of the three reasons for a fault only the second answers this trap, and it stops the access check. -/
theorem trapsToAArch64EL2ExactlyUnderT7 : Obligations.TrapsToAArch64EL2ExactlyUnderT7 := by
  intro i s
  constructor
  · intro target code h
    obtain ⟨-, ⟨hf, -⟩ | ⟨hf, -, htrap⟩ | ⟨hf, -⟩⟩ := exec_fault h
    · cases hf
    · cases hf
      exact ⟨rfl, rfl, htrap⟩
    · cases hf
  · intro hw hc hcp htrap
    exact exec_of_accessCheck_stop hw hc hcp ((accessCheck_a64_iff s _).2 htrap)

/-- Settles O18: of the three reasons for a fault only the third answers this trap, and it stops the access check. -/
theorem takesHypTrapExactlyUnderT7 : Obligations.TakesHypTrapExactlyUnderT7 := by
  intro i s
  constructor
  · intro code h
    obtain ⟨-, ⟨hf, -⟩ | ⟨hf, -⟩ | ⟨hf, -, htrap⟩⟩ := exec_fault h
    · cases hf
    · cases hf
    · cases hf
      exact ⟨rfl, htrap⟩
  · intro hw hc hcp htrap
    exact exec_of_accessCheck_stop hw hc hcp ((accessCheck_hyp_iff s _).2 htrap)

/-- Settles O19, by everything that can make an instruction fault. -/
theorem faultsHaveOneOfThreeReasons : Obligations.FaultsHaveOneOfThreeReasons :=
  fun _ _ _ h => exec_fault h

/-- Settles O20: an instruction that answers a next state passed the access check, which EL0 does not. -/
theorem noAccessCompletesAtEL0 : Obligations.NoAccessCompletesAtEL0 := by
  intro i s t h0 h
  obtain ⟨hu, -, -⟩ := exec_accessProceeds h
  exact hu (.inr h0)

/-! ## The Secure instance below EL3 (R12, R161) -/

/-- Below EL3 no access selects PAR_S. -/
theorem selectPAR_ne_parS {cfg : Config} {ctx : Ctx} (h : ctx.el ≠ .el3) : selectPAR cfg ctx ≠ .parS := by
  rw [selectPAR, if_neg h]
  split <;> simp

/-- Settles O28: an instruction changes no instance but the one it selects. -/
theorem noInstructionBelowEL3ChangesTheSecureInstance : Obligations.NoInstructionBelowEL3ChangesTheSecureInstance := by
  intro i s t hel h
  exact exec_par_get_of_ne h (selectPAR_ne_parS hel).symm

/-! ## Changes that no instruction notices -/

/-- No instruction run in `s` notices the change `f` of the state: `f` keeps the answer of every test, the instance selected with
its value, and the registers; and it commutes with writing a register and with writing that instance. -/
structure State.Unnoticed (f : State → State) (s : State) : Prop where
  cfg : (f s).cfg = s.cfg
  unsynced : (f s).unsynced = s.unsynced
  condPassed : (f s).ctx.condPassed = s.ctx.condPassed
  defect : contextDefect s.cfg (f s).ctx = contextDefect s.cfg s.ctx
  check : ∀ code, accessCheck s.cfg (f s).ctx code = accessCheck s.cfg s.ctx code
  select : selectPAR s.cfg (f s).ctx = selectPAR s.cfg s.ctx
  selected : (f s).par.get (selectPAR s.cfg s.ctx) = s.par.get (selectPAR s.cfg s.ctx)
  reg : ∀ t, (f s).reg t = s.reg t
  setReg : ∀ u t v, (f u).setReg t v = f (u.setReg t v)
  setSelected : ∀ v, (f s).setPAR (selectPAR s.cfg s.ctx) v = f (s.setPAR (selectPAR s.cfg s.ctx) v)

section Unnoticed

variable {f : State → State} (hf : State.Unnoticed f s)
include hf

/-- An access carries an unnoticed change along when its move on the selected instance does. -/
theorem registerAccess_of_unnoticed {ok : Bool} {code : Nat} {act : Inst → State → State}
    (hact : act (selectPAR s.cfg s.ctx) (f s) = f (act (selectPAR s.cfg s.ctx) s)) :
    registerAccess ok code act (f s) = mapNext f (registerAccess ok code act s) := by
  cases ok with
  | false => rfl
  | true =>
    simp only [registerAccess_ok, directAccess, hf.cfg, hf.unsynced, hf.condPassed, hf.defect, hf.check, hf.select, hact]
    cases contextDefect s.cfg s.ctx with
    | some r => rfl
    | none =>
      cases gate s.ctx.condPassed (accessCheck s.cfg s.ctx code) with
      | fault e => rfl
      | refuse => rfl
      | noEffect => rfl
      | access =>
        dsimp only
        split_ifs <;> rfl

/-- An instruction carries an unnoticed change along: its move reads the selected instance and registers, and writes one or the other. -/
theorem exec_of_unnoticed (i : Instr) : exec i (f s) = mapNext f (exec i s) := by
  cases i with
  | mrc _ t =>
    exact registerAccess_of_unnoticed hf (act := moveMRC t) (by simp only [moveMRC, hf.selected, hf.setReg])
  | mcr _ t =>
    exact registerAccess_of_unnoticed hf (act := moveMCR t) (by simp only [moveMCR, hf.selected, hf.reg, hf.setSelected])
  | mrrc _ t t2 =>
    exact registerAccess_of_unnoticed hf (act := moveMRRC t t2) (by simp only [moveMRRC, hf.selected, hf.setReg])
  | mcrr _ t t2 =>
    exact registerAccess_of_unnoticed hf (act := moveMCRR t t2) (by simp only [moveMCRR, hf.reg, hf.setSelected])

end Unnoticed

/-! ## PAR_S is unnoticed below EL3 (R161) -/

theorem Banks.set_set_comm {α : Type} (b : Banks α) {j k : Inst} (h : j ≠ k) (v w : α) :
    (b.set j v).set k w = (b.set k w).set j v := by
  refine Banks.ext_get fun inst => ?_
  simp only [Banks.get_set]
  split_ifs with hk hj
  · exact absurd (hj.symm.trans hk) h
  all_goals rfl

theorem State.setPAR_setPAR_comm (s : State) {j k : Inst} (h : j ≠ k) (v w : DWord) :
    (s.setPAR j v).setPAR k w = (s.setPAR k w).setPAR j v := by
  simp only [State.setPAR, Banks.set_set_comm s.par h]

/-- Writing an instance that is not selected is unnoticed. -/
theorem unnoticed_setPAR {j : Inst} (h : j ≠ selectPAR s.cfg s.ctx) (v : DWord) :
    State.Unnoticed (fun u => u.setPAR j v) s where
  cfg := rfl
  unsynced := rfl
  condPassed := rfl
  defect := rfl
  check _ := rfl
  select := rfl
  selected := by simp [h.symm]
  reg _ := rfl
  setReg _ _ _ := rfl
  setSelected w := State.setPAR_setPAR_comm s h v w

/-- Settles O29: below EL3 PAR_S is not the instance selected. -/
theorem secureInstanceIsInvisibleBelowEL3 : Obligations.SecureInstanceIsInvisibleBelowEL3 :=
  fun i _ v hel => exec_of_unnoticed (unnoticed_setPAR (selectPAR_ne_parS hel).symm v) i

/-! ## The T7 bits are unnoticed at EL2 and EL3 (R146) -/

/-- At EL2 and EL3 every access to a present register proceeds. -/
theorem accessProceeds_of_el2_or_el3 (hel : s.ctx.el = .el2 ∨ s.ctx.el = .el3) (hp : s.cfg.parPresent = true) :
    s.AccessProceeds := by
  unfold State.AccessProceeds State.AccessUndefined State.AccessTrapsToA64 State.AccessTrapsToHyp
  obtain hel | hel := hel <;> simp [hel, hp]

/-- The state with other values of HSTR.T7 and HSTR_EL2.T7. -/
def State.withT7 (s : State) (a b : BitVec 1) : State := { s with ctx := { s.ctx with hstrT7 := a, hstrEl2T7 := b } }

/-- At EL2 and EL3, with the register present, a state whose T7 bits alone were changed does not notice their being put back. -/
theorem unnoticed_restoreT7 (a b : BitVec 1) (hel : s.ctx.el = .el2 ∨ s.ctx.el = .el3) (hp : s.cfg.parPresent = true) :
    State.Unnoticed (fun u => { u with ctx := s.ctx }) (s.withT7 a b) where
  cfg := rfl
  unsynced := rfl
  condPassed := rfl
  defect := rfl
  check code := by
    have hbefore := (accessCheck_proceed_iff (s.withT7 a b) code).2 (accessProceeds_of_el2_or_el3 hel hp)
    have hafter := (accessCheck_proceed_iff s code).2 (accessProceeds_of_el2_or_el3 hel hp)
    exact hafter.trans hbefore.symm
  select := rfl
  selected := rfl
  reg _ := rfl
  setReg _ _ _ := rfl
  setSelected _ := rfl

/-- Settles O21: the access proceeds, against each of the three reasons for a fault; and the T7 bits are unnoticed. -/
theorem accessesAtEL2AndEL3AreNeverTrapped : Obligations.AccessesAtEL2AndEL3AreNeverTrapped := by
  intro i s a b hel hp
  constructor
  · intro f h
    obtain ⟨hu, ha, hh⟩ := accessProceeds_of_el2_or_el3 hel hp
    obtain ⟨-, ⟨-, hr⟩ | ⟨-, hr⟩ | ⟨-, hr⟩⟩ := exec_fault h
    · exact hu hr
    · exact ha hr
    · exact hh hr
  · exact (exec_of_unnoticed (unnoticed_restoreT7 a b hel hp) i).symm

end Sys2Proof.Machine
end

section
/-! SUPPORT. Hazards between accesses and events: what is written reads back at once (R175), and an instance with a write-back outstanding
waits for a Context synchronization event exactly while SyncRequired holds (R176, R83, R110). -/

namespace Sys2Proof.Machine

variable {s : State} {inst : Inst} {i : Instr}

/-! ## A direct write and the reads after it (R175) -/

/-- Settles O32: the write leaves both reads ready, and each word of what it joined reads back. -/
theorem writtenWordsReadBack : Obligations.WrittenWordsReadBack := by
  intro s inst c c2 t t2 a b h ht ht2 ha hb hab
  have hready := accessReady_setPAR h inst (joinWords (s.reg t2) (s.reg t))
  refine ⟨_, _, _, exec_mcrr_ready h ht ht2, exec_mrrc_ready hready ha hb hab, exec_mrc_ready hready ha, ?_, ?_, ?_⟩
  · simp [hab]
  · simp
  · simp

/-- Settles O33: the write leaves the read ready, and replaces the low word only. -/
theorem lowWordWriteThenWideRead : Obligations.LowWordWriteThenWideRead := by
  intro s inst c c2 t a b h ht ha hb hab
  have hready := accessReady_setPAR h inst (replaceLow (s.par.get inst) (s.reg t))
  refine ⟨_, _, exec_mcr_ready h ht, exec_mrrc_ready hready ha hb hab, ?_, ?_⟩
  · simp [hab]
  · change _ = highWord (s.par.get inst)
    simp

/-! ## A ready instruction and an unsynchronised one -/

/-- A ready well-formed instruction completes and acts on the value its instance holds (R120, R121, R130, R131). -/
theorem exec_ready (hw : i.wellFormed = true) (h : s.AccessReady inst) :
    ∃ u, exec i s = .next u ∧ AccessDid i inst s u := by
  cases i with
  | mrc c t =>
    obtain ⟨-, ht⟩ := wellFormed_mrc_iff.1 hw
    exact ⟨_, exec_mrc_ready h ht, by simp [AccessDid, lowWord]⟩
  | mcr c t =>
    obtain ⟨-, ht⟩ := wellFormed_mcr_iff.1 hw
    exact ⟨_, exec_mcr_ready h ht, by simp [AccessDid, replaceLow, joinWords, highWord]⟩
  | mrrc c t t2 =>
    obtain ⟨-, ht, ht2, hne⟩ := wellFormed_mrrc_iff.1 hw
    exact ⟨_, exec_mrrc_ready h ht ht2 hne, by simp [AccessDid, lowWord, highWord, hne]⟩
  | mcrr c t t2 =>
    obtain ⟨-, ht, ht2⟩ := wellFormed_mcrr_iff.1 hw
    exact ⟨_, exec_mcrr_ready h ht ht2, by simp [AccessDid, joinWords]⟩

/-- Settles O22: the instance reached is the selected one, so the premise of R176 fails. -/
theorem unsynchronisedAccessIsRefused : Obligations.UnsynchronisedAccessIsRefused := by
  intro i s inst hw hc hp hcp hr hsync huns
  obtain ⟨act, he⟩ := exec_eq_directAccess hw
  rw [he, directAccess_condPassed hc hp hcp, selectPAR_eq_of_reaches hr, hsync, huns]
  rfl

/-! ## A write-back and the instruction after it -/

/-- What an instruction did with its instance is told from the values before it, which a Context synchronization event keeps. -/
theorem accessDid_syncAll_iff {u : State} : AccessDid i inst s.syncAll u ↔ AccessDid i inst s u := by
  cases i <;> rfl

/-- Synchronised, an access is ready where it was ready before the write-back: neither event changes the configuration or the context. -/
theorem accessReady_syncAll_writeBack (h : s.AccessReady inst) (j : Inst) (res : ATResult) :
    (writeBack j res s).syncAll.AccessReady inst := by
  obtain ⟨hc, hp, hcp, hr, -⟩ := h
  refine ⟨hc, hp, hcp, hr, fun _ => ?_⟩
  rw [State.syncAll_unsynced, Banks.get_all]

/-- Where SyncRequired is false an access is ready straight after the write-back. -/
theorem accessReady_writeBack (h : s.AccessReady inst) (hsync : s.cfg.syncRequired = false) (j : Inst) (res : ATResult) :
    (writeBack j res s).AccessReady inst := by
  obtain ⟨hc, hp, hcp, hr, -⟩ := h
  have hoff : ¬ s.cfg.syncRequired = true := by simp [hsync]
  exact ⟨hc, hp, hcp, hr, fun hon => absurd hon hoff⟩

/-- Where SyncRequired is true every access to the instance is refused straight after the write-back. -/
theorem exec_writeBack_refused (hw : i.wellFormed = true) (h : s.AccessReady inst) (hsync : s.cfg.syncRequired = true)
    (res : ATResult) : exec i (writeBack inst res s) = .refused (.unsynchronised inst) := by
  obtain ⟨hc, hp, hcp, hr, -⟩ := h
  exact unsynchronisedAccessIsRefused i _ inst hw hc hp hcp hr hsync (by simp)

/-- Settles O45: the write-back sets the flag that refuses the access, and the event clears it. -/
theorem writeBackNeedsContextSyncBeforeAccess : Obligations.WriteBackNeedsContextSyncBeforeAccess := by
  intro s inst res i hw h hres
  have hwrite := execATResult_ok h.1 (instExists_of_accessReady h) ((resultDefect_none_iff _ _).2 hres)
  have hcontext : (writeBack inst res s).ContextOk := h.1
  obtain ⟨w, hexec, hdid⟩ := exec_ready hw (accessReady_syncAll_writeBack h inst res)
  exact ⟨_, _, w, hwrite, execContextSync_ok hcontext, hexec, accessDid_syncAll_iff.1 hdid,
    fun hsync => exec_writeBack_refused hw h hsync res, fun hsync => exec_ready hw (accessReady_writeBack h hsync inst res)⟩

end Sys2Proof.Machine
end

section
/-! SUPPORT. The reset state (R170), and what every step makes of the configuration, the program and the context (R173, R17). -/

namespace Sys2Proof.Machine

/-- Settles O52: the head is removed and its context supplied before it runs, and what then runs, an instruction or an event, keeps all
three. -/
theorem stepKeepsConfigurationAndMovesOn : Obligations.StepKeepsConfigurationAndMovesOn := by
  intro s t h
  obtain ⟨e, rest, hp, ⟨i, -, hi⟩ | ⟨inst, res, -, ha⟩ | ⟨-, hc⟩⟩ := step_next h
  · obtain ⟨-, hcfg, hctx, -, hprogram⟩ := exec_keeps_all_but_values hi
    exact ⟨hcfg, e, by rw [hp, hprogram, State.begin_program], hctx⟩
  · obtain ⟨-, -, -, rfl⟩ := execATResult_next ha
    exact ⟨rfl, e, hp, rfl⟩
  · obtain ⟨-, rfl⟩ := execContextSync_next hc
    exact ⟨rfl, e, hp, rfl⟩

@[simp] theorem State.reset_unsynced_get (inst : Inst) : State.reset.unsynced.get inst = false := by
  cases inst <;> rfl

/-- Settles O55: the flags are clear and the three draws are the first three of the run. -/
theorem resetLeavesDrawsAndNothingOutstanding : Obligations.ResetLeavesDrawsAndNothingOutstanding :=
  ⟨State.reset_unsynced_get, rfl, rfl, rfl⟩

/-- Settles O51: the chosen configuration and context are closed, and with no flag set there is no write-back to place. -/
theorem resetMeetsTheInvariant : Obligations.ResetMeetsTheInvariant where
  paSize := by decide
  context := by decide
  outstanding inst h := by simp at h

end Sys2Proof.Machine
end
